-- ==== Sys2Proof/Word.lean ====
section
/-! DEFINITION. The words and the numbers of the part: bytes, and the numbers that name a requester, a segment,
a window record and a pending slot (00_scope.md, Identification). -/

namespace Sys2Proof

/-- A byte of a message or of a segment (R171). -/
abbrev Byte := BitVec 8

/-- A requester on the Upstream Port, 0–31 (R52). -/
abbrev Requester := Fin 32

/-- A segment, 0–3. -/
abbrev SegmentNumber := Fin 4

/-- A window record, 0–47 (R2). -/
abbrev WindowNumber := Fin 48

/-- A slot of the Pending Table, 0–15 (R69). -/
abbrev Slot := Fin 16

end Sys2Proof
end

