-- ==== Sys2Proof/Syntax.lean ====
section
/-! DEFINITION. The commands: one constructor for each row of spec/opcode_table.json. An ask is given by the bytes of
its message, less the bytes that its row itself names (the message kind, the command code, a setting code): the
layouts are those of R171, R172 and R175 (log 9). -/

namespace Sys2Proof

/-- What the link delivered of an ask's header after the message kind (R171). -/
inductive Header where
  /-- The whole header: the requester byte, the body length byte and the byte at offset 3. -/
  | whole (requester bodyLength reserved : Byte)
  /-- The message ended inside its header, after these bytes of it (none, one or two). -/
  | cut (bytes : List Byte)
  deriving DecidableEq, Repr

/-- Which message leaves the port next: R68 lets a NOTICE leave between any two answers. -/
inductive Outgoing where
  | answer
  | notice
  deriving DecidableEq, Repr

/-- The cycle that a target's signal answers (R118): its segment, and the number the cycle was given when it started (log 17). -/
structure CycleName where
  segment : SegmentNumber
  number : Nat
  deriving DecidableEq, Repr

/-- The commands of the part. -/
inductive Instr where
  /-- READ ask: message kind 01h (R53, R61). -/
  | read (header : Header) (body : List Byte)
  /-- WRITE ask: message kind 02h (R53, R62). -/
  | write (header : Header) (body : List Byte)
  /-- NOTICE-ACK ask: message kind 04h (R55, R144). -/
  | noticeAck (header : Header) (body : List Byte)
  /-- MANAGE OPEN, code 10h (R25–R28). -/
  | openWindow (header : Header) (operands : List Byte)
  /-- MANAGE AMEND, code 11h (R29–R31). -/
  | amend (header : Header) (operands : List Byte)
  /-- MANAGE RENEW, code 12h (R32). -/
  | renew (header : Header) (operands : List Byte)
  /-- MANAGE FREEZE, code 13h (R36). -/
  | freeze (header : Header) (operands : List Byte)
  /-- MANAGE CLOSE, code 14h, its ABANDON bit clear or absent (R38, R39). -/
  | close (header : Header) (operands : List Byte)
  /-- MANAGE CLOSE, code 14h, its ABANDON bit set (R39, R40). -/
  | closeWithAbandon (header : Header) (operands : List Byte)
  /-- MANAGE QUERY, code 15h (R46). -/
  | query (header : Header) (operands : List Byte)
  /-- MANAGE LOOKUP, code 16h (R47). -/
  | lookup (header : Header) (operands : List Byte)
  /-- MANAGE BRING-ONLINE, code 20h (R126). -/
  | bringOnline (header : Header) (operands : List Byte)
  /-- MANAGE TAKE-OFFLINE, code 21h (R127). -/
  | takeOffline (header : Header) (operands : List Byte)
  /-- MANAGE RESUME, code 22h (R128). -/
  | resume (header : Header) (operands : List Byte)
  /-- MANAGE RESET-SEGMENT, code 23h (R129, R130). -/
  | resetSegment (header : Header) (operands : List Byte)
  /-- MANAGE SEGMENT-STATUS, code 24h (R133). -/
  | segmentStatus (header : Header) (operands : List Byte)
  /-- MANAGE PENDING-STATUS, code 30h (R91, R92). -/
  | pendingStatus (header : Header) (operands : List Byte)
  /-- MANAGE CANCEL-REQUESTER, code 31h (R87, R88). -/
  | cancelRequester (header : Header) (operands : List Byte)
  /-- MANAGE RESUME-NOTICES, code 40h (R149). -/
  | resumeNotices (header : Header) (operands : List Byte)
  /-- MANAGE NOTICE-STATUS, code 41h (R151). -/
  | noticeStatus (header : Header) (operands : List Byte)
  /-- MANAGE READ-SETTING, code 50h (R160). -/
  | readSetting (header : Header) (operands : List Byte)
  /-- MANAGE WRITE-SETTING, code 51h, of a setting that has no row of its own, or of no setting (R161). -/
  | writeSetting (header : Header) (operands : List Byte)
  /-- MANAGE WRITE-SETTING, code 51h, whose operand byte 0 is 07h NOTICE-TARGET; `rest` is the block after it (R150, R164). -/
  | noticeTarget (header : Header) (rest : List Byte)
  /-- MANAGE WRITE-SETTING, code 51h, whose operand byte 0 is 10h SEGn-WIDTH; `rest` is the block after it (R162). -/
  | segnWidth (header : Header) (rest : List Byte)
  /-- MANAGE WRITE-SETTING, code 51h, whose operand byte 0 is 01h MANAGEMENT-SET; `rest` is the block after it (R163). -/
  | managementSet (header : Header) (rest : List Byte)
  /-- MANAGE IDENTIFY, code 52h (R165). -/
  | identify (header : Header) (operands : List Byte)
  /-- MANAGE WARM-RESET, code 53h (R167). -/
  | warmReset (header : Header) (operands : List Byte)
  /-- A MANAGE ask whose body names no command: its code is unknown (R156), or the body holds no code at all (R172). -/
  | unknownCommand (header : Header) (body : List Byte)
  /-- WARM_N is asserted (R166). -/
  | warmNAssert
  /-- WARM_N is released (R50). -/
  | warmNRelease
  /-- PWRGOOD falls (R51). -/
  | pwrgoodFall
  /-- PWRGOOD has been high for 1 ms and the cold reset ends (R51). -/
  | coldResetEnd
  /-- The lease timer of a window expires (R34). -/
  | leaseExpiry (window : WindowNumber)
  /-- The discard timer of an entry expires (R85). -/
  | discardExpiry (slot : Slot)
  /-- The timer of a segment's current cycle expires (R118). -/
  | cycleTimeout (segment : SegmentNumber)
  /-- The target acknowledges a cycle; `data` is what stands on SEGn_DATA[15:0] (R119, R179). -/
  | cycleAcknowledged (cycle : CycleName) (data : BitVec 16)
  /-- The target signals error for a cycle (R121). -/
  | targetError (cycle : CycleName)
  /-- The reset pulse timer of a segment expires (R132). -/
  | resetPulseExpiry (segment : SegmentNumber)
  /-- The ack timer of the Notice Unit expires (R145). -/
  | ackTimerExpiry
  /-- A segment's engine takes the head of its work queue (R113). -/
  | takeHead (segment : SegmentNumber)
  /-- The Notice Unit sends the head of the notice queue (R143). -/
  | noticeSend
  /-- PWRGOOD rises (R51). -/
  | pwrgoodRise
  /-- An ask whose message kind names none of the four; `message` is the whole message (R58, R171). -/
  | askOfUnknownKind (message : List Byte)
  /-- A message that was determined or handed to the port leaves it (R67, R68). -/
  | messageLeavesPort (which : Outgoing)
  deriving DecidableEq, Repr

end Sys2Proof
end

