-- ==== Sys2Proof/WellFormed.lean ====
section
/-! DEFINITION. When a command's operands spell the row it stands for. The part itself judges every other field of an
ask (R58, R175): a malformed ask and an ask with a bad operand are well-formed commands with answers of their own. -/

namespace Sys2Proof

/-- A header cut short holds at most two bytes after the message kind, and nothing follows it. -/
def Header.fits (h : Header) (body : List Byte) : Bool :=
  match h with
  | .whole _ _ _ => true
  | .cut bytes => decide (bytes.length ≤ 2) && body.isEmpty

/-- The header is whole: only then does a message carry a command code. -/
def Header.isWhole : Header → Bool
  | .whole _ _ _ => true
  | .cut _ => false

/-- The message kinds of the four asks (R171). -/
def askKinds : List Byte := [0x01, 0x02, 0x03, 0x04]

/-- The command codes of R175. -/
def commandCodes : List Byte :=
  [0x10, 0x11, 0x12, 0x13, 0x14, 0x15, 0x16, 0x20, 0x21, 0x22, 0x23, 0x24, 0x30, 0x31, 0x40, 0x41, 0x50, 0x51, 0x52, 0x53]

/-- The setting codes whose writes have a row of their own: MANAGEMENT-SET, NOTICE-TARGET and SEGn-WIDTH (R178). -/
def ownRowSettings : List Byte := [0x01, 0x07, 0x10]

/-- Bit 0 of operand byte 1 of CLOSE (R176), clear where the block has no such byte. -/
def abandonBit (operands : List Byte) : Bool := (operands.getD 1 0).getLsbD 0

/-- The command spells its own row. -/
def Instr.wellFormed : Instr → Bool
  | .read h body => h.fits body
  | .write h body => h.fits body
  | .noticeAck h body => h.fits body
  | .openWindow h _ => h.isWhole
  | .amend h _ => h.isWhole
  | .renew h _ => h.isWhole
  | .freeze h _ => h.isWhole
  | .close h ops => h.isWhole && !abandonBit ops
  | .closeWithAbandon h ops => h.isWhole && abandonBit ops
  | .query h _ => h.isWhole
  | .lookup h _ => h.isWhole
  | .bringOnline h _ => h.isWhole
  | .takeOffline h _ => h.isWhole
  | .resume h _ => h.isWhole
  | .resetSegment h _ => h.isWhole
  | .segmentStatus h _ => h.isWhole
  | .pendingStatus h _ => h.isWhole
  | .cancelRequester h _ => h.isWhole
  | .resumeNotices h _ => h.isWhole
  | .noticeStatus h _ => h.isWhole
  | .readSetting h _ => h.isWhole
  | .writeSetting h ops => h.isWhole && !(ops.head?.any (ownRowSettings.contains ·))
  | .noticeTarget h _ => h.isWhole
  | .segnWidth h _ => h.isWhole
  | .managementSet h _ => h.isWhole
  | .identify h _ => h.isWhole
  | .warmReset h _ => h.isWhole
  | .unknownCommand h body => h.fits body && !(body.head?.any (commandCodes.contains ·))
  | .warmNAssert => true
  | .warmNRelease => true
  | .pwrgoodFall => true
  | .coldResetEnd => true
  | .leaseExpiry _ => true
  | .discardExpiry _ => true
  | .cycleTimeout _ => true
  | .cycleAcknowledged _ _ => true
  | .targetError _ => true
  | .resetPulseExpiry _ => true
  | .ackTimerExpiry => true
  | .takeHead _ => true
  | .noticeSend => true
  | .pwrgoodRise => true
  | .askOfUnknownKind message => !(message.head?.any (askKinds.contains ·))
  | .messageLeavesPort _ => true

end Sys2Proof
end

