-- ==== Sys2Proof/Decode.lean ====
section
/-! DEFINITION. The decoder of the table's words, and the decoder of the messages of the Upstream Port: which row a
received string of bytes is (R56, R171, R175), total on any bytes, and after it the message that a command spells. -/

namespace Sys2Proof

/-- No row of spec/opcode_table.json gives bits: no word spells a command. -/
def decodeTableWord (_nbits _w : Nat) : Option Instr := none

/-- The bytes after the message kind, cut into the rest of the header and the body (R171). -/
def splitHeader : List Byte → Header × List Byte
  | requester :: bodyLength :: reserved :: body => (.whole requester bodyLength reserved, body)
  | bytes => (.cut bytes, [])

/-- The row of a WRITE-SETTING by the setting code in operand byte 0 (R178). -/
def ofWriteSetting (h : Header) : List Byte → Instr
  | [] => .writeSetting h []
  | setting :: rest =>
    if setting = 0x01 then .managementSet h rest
    else if setting = 0x07 then .noticeTarget h rest
    else if setting = 0x10 then .segnWidth h rest
    else .writeSetting h (setting :: rest)

/-- The row of a MANAGE ask by its command code (R175). -/
def ofCommandCode (h : Header) (code : Byte) (operands : List Byte) : Instr :=
  if code = 0x10 then .openWindow h operands
  else if code = 0x11 then .amend h operands
  else if code = 0x12 then .renew h operands
  else if code = 0x13 then .freeze h operands
  else if code = 0x14 then
    if abandonBit operands then .closeWithAbandon h operands else .close h operands
  else if code = 0x15 then .query h operands
  else if code = 0x16 then .lookup h operands
  else if code = 0x20 then .bringOnline h operands
  else if code = 0x21 then .takeOffline h operands
  else if code = 0x22 then .resume h operands
  else if code = 0x23 then .resetSegment h operands
  else if code = 0x24 then .segmentStatus h operands
  else if code = 0x30 then .pendingStatus h operands
  else if code = 0x31 then .cancelRequester h operands
  else if code = 0x40 then .resumeNotices h operands
  else if code = 0x41 then .noticeStatus h operands
  else if code = 0x50 then .readSetting h operands
  else if code = 0x51 then ofWriteSetting h operands
  else if code = 0x52 then .identify h operands
  else if code = 0x53 then .warmReset h operands
  else .unknownCommand h (code :: operands)

/-- The row of a MANAGE ask (R172): a body of no bytes names no command. -/
def ofManage (h : Header) : List Byte → Instr
  | [] => .unknownCommand h []
  | code :: operands => ofCommandCode h code operands

/-- The row that the bytes of a received message are (R56, R171). -/
def Instr.ofMessage : List Byte → Instr
  | [] => .askOfUnknownKind []
  | kind :: rest =>
    if kind = 0x01 then .read (splitHeader rest).1 (splitHeader rest).2
    else if kind = 0x02 then .write (splitHeader rest).1 (splitHeader rest).2
    else if kind = 0x03 then ofManage (splitHeader rest).1 (splitHeader rest).2
    else if kind = 0x04 then .noticeAck (splitHeader rest).1 (splitHeader rest).2
    else .askOfUnknownKind (kind :: rest)

/-- The bytes of a header after the message kind. -/
def Header.bytes : Header → List Byte
  | .whole requester bodyLength reserved => [requester, bodyLength, reserved]
  | .cut bytes => bytes

/-- The message of a kind, a header and a body (R171). -/
def spell (kind : Byte) (h : Header) (body : List Byte) : List Byte :=
  kind :: (h.bytes ++ body)

/-- The message that an ask is; the other commands are no messages. -/
def Instr.message : Instr → Option (List Byte)
  | .read h body => some (spell 0x01 h body)
  | .write h body => some (spell 0x02 h body)
  | .noticeAck h body => some (spell 0x04 h body)
  | .openWindow h ops => some (spell 0x03 h (0x10 :: ops))
  | .amend h ops => some (spell 0x03 h (0x11 :: ops))
  | .renew h ops => some (spell 0x03 h (0x12 :: ops))
  | .freeze h ops => some (spell 0x03 h (0x13 :: ops))
  | .close h ops => some (spell 0x03 h (0x14 :: ops))
  | .closeWithAbandon h ops => some (spell 0x03 h (0x14 :: ops))
  | .query h ops => some (spell 0x03 h (0x15 :: ops))
  | .lookup h ops => some (spell 0x03 h (0x16 :: ops))
  | .bringOnline h ops => some (spell 0x03 h (0x20 :: ops))
  | .takeOffline h ops => some (spell 0x03 h (0x21 :: ops))
  | .resume h ops => some (spell 0x03 h (0x22 :: ops))
  | .resetSegment h ops => some (spell 0x03 h (0x23 :: ops))
  | .segmentStatus h ops => some (spell 0x03 h (0x24 :: ops))
  | .pendingStatus h ops => some (spell 0x03 h (0x30 :: ops))
  | .cancelRequester h ops => some (spell 0x03 h (0x31 :: ops))
  | .resumeNotices h ops => some (spell 0x03 h (0x40 :: ops))
  | .noticeStatus h ops => some (spell 0x03 h (0x41 :: ops))
  | .readSetting h ops => some (spell 0x03 h (0x50 :: ops))
  | .writeSetting h ops => some (spell 0x03 h (0x51 :: ops))
  | .noticeTarget h rest => some (spell 0x03 h (0x51 :: 0x07 :: rest))
  | .segnWidth h rest => some (spell 0x03 h (0x51 :: 0x10 :: rest))
  | .managementSet h rest => some (spell 0x03 h (0x51 :: 0x01 :: rest))
  | .identify h ops => some (spell 0x03 h (0x52 :: ops))
  | .warmReset h ops => some (spell 0x03 h (0x53 :: ops))
  | .unknownCommand h body => some (spell 0x03 h body)
  | .warmNAssert => none
  | .warmNRelease => none
  | .pwrgoodFall => none
  | .coldResetEnd => none
  | .leaseExpiry _ => none
  | .discardExpiry _ => none
  | .cycleTimeout _ => none
  | .cycleAcknowledged _ _ => none
  | .targetError _ => none
  | .resetPulseExpiry _ => none
  | .ackTimerExpiry => none
  | .takeHead _ => none
  | .noticeSend => none
  | .pwrgoodRise => none
  | .askOfUnknownKind message => some message
  | .messageLeavesPort _ => none

end Sys2Proof
end

