-- ==== Sys2Proof/Machine/Bytes.lean ====
section
/-! DEFINITION. Byte order, decided once: a field of more than one byte is sent least significant byte first (R171). -/

namespace Sys2Proof.Machine

/-- The number that bytes spell, the least significant first (R171). -/
def numberOf : List Byte → Nat
  | [] => 0
  | b :: bs => b.toNat + 256 * numberOf bs

/-- A field of `width` bytes that holds `n`, the least significant byte first (R171). -/
def fieldOf : (width : Nat) → (n : Nat) → List Byte
  | 0, _ => []
  | width + 1, n => BitVec.ofNat 8 n :: fieldOf width (n / 256)

/-- The byte at an offset of a block; a byte beyond the block reads as zero and no layout looks there. -/
def byteAt (block : List Byte) (offset : Nat) : Byte := block.getD offset 0

/-- The number in the `width` bytes at an offset of a block. -/
def fieldAt (block : List Byte) (offset width : Nat) : Nat :=
  numberOf ((block.drop offset).take width)

end Sys2Proof.Machine
end

