-- ==== Sys2Proof/Config.lean ====
section
/-! DEFINITION. What is fixed for the part: the lengths of the timer units (00_scope.md, Time base), the capacities
of its tables and queues and its identification (R165). The part has no free value: the spec states every result
(log 15). -/

namespace Sys2Proof.Config

/-- Microseconds in one unit of a window lease. -/
def leaseUnit : Nat := 1000

/-- Microseconds in one unit of a discard timer. -/
def discardUnit : Nat := 64

/-- Microseconds in one unit of a cycle timer. -/
def cycleUnit : Nat := 1

/-- Microseconds in one unit of a reset pulse. -/
def pulseUnit : Nat := 1

/-- Microseconds in one unit of the notice acknowledgement timer. -/
def ackUnit : Nat := 100

/-- Microseconds in one unit of the count of R51 from the rise of PWRGOOD to the end of the cold reset: 1000 units of 1 µs make
up its 1 ms (log 2). -/
def powerUnit : Nat := 1

/-- Posted items a segment's work queue holds, the one in flight included (R95). -/
def postedCapacity : Nat := 8

/-- Notices the notice queue holds (R138). -/
def noticeCapacity : Nat := 16

/-- The most a repeat count reaches (R139). -/
def repeatLimit : Nat := 255

/-- Sends of one head before delivery stalls (R145). -/
def attemptLimit : Nat := 3

/-- The longest operand block of a MANAGE ask (R54). -/
def operandLimit : Nat := 24

end Sys2Proof.Config
end

