-- ==== Sys2Proof/Machine/State.lean ====
section
/-! DEFINITION. The state of the part as plain data: every piece of state the chapters name, its cold reset values
(R2, R51, R69, R111, R142, R158) and the state right after a cold reset. -/

namespace Sys2Proof.Machine

/-! ### Values shared by the blocks -/

/-- The two spaces of upstream addresses (R3). -/
inductive Space where
  | memory
  | io
  deriving DecidableEq, Repr

/-- Whether an access reads or writes. -/
inductive AccessKind where
  | read
  | write
  deriving DecidableEq, Repr

/-- The write policy of a window (R5). -/
inductive WritePolicy where
  | posted
  | delayed
  deriving DecidableEq, Repr

/-- What a NO-RESPONSE result becomes (R5). -/
inductive AbsentPolicy where
  | ones
  | fault
  deriving DecidableEq, Repr

/-- The time a running timer has left: `units` of its own unit, of which the present one has `micros` microseconds
left (R1; log 2, log 3). -/
structure Timer where
  units : Nat
  micros : Nat
  deriving DecidableEq, Repr

/-- The route of an accepted item: a window at one generation, or the default route (R4, R18). -/
inductive Route where
  | window (number : WindowNumber) (generation : Byte)
  | defaultRoute
  deriving DecidableEq, Repr

/-! ### The Window Table -/

/-- The state of a window record (R4). -/
inductive WindowState where
  | free
  | opened
  | closing
  deriving DecidableEq, Repr

/-- Why a window is CLOSING (R8). -/
inductive RetireReason where
  | closed
  | leaseExpired
  | abandoned
  deriving DecidableEq, Repr

/-- A window record (R2). Owners absent is the empty list (R26). -/
structure Window where
  state : WindowState
  generation : Byte
  space : Space
  base : Nat
  limit : Nat
  segment : SegmentNumber
  segmentBase : Nat
  writePolicy : WritePolicy
  absentPolicy : AbsentPolicy
  owners : List Requester
  /-- The lease with its timer, in units of 1 ms; absent is `none` (R7, R33). -/
  lease : Option Timer
  frozen : Bool
  retireReason : RetireReason
  inFlight : Nat
  deriving DecidableEq, Repr

/-- The cold reset column of R2. -/
def Window.cold : Window where
  state := .free
  generation := 0
  space := .memory
  base := 0
  limit := 0xF
  segment := 0
  segmentBase := 0
  writePolicy := .delayed
  absentPolicy := .ones
  owners := []
  lease := none
  frozen := false
  retireReason := .closed
  inFlight := 0

/-! ### The Pending Table -/

/-- The state of a pending entry (R70). -/
inductive EntryState where
  | free
  | queued
  | issued
  | complete
  deriving DecidableEq, Repr

/-- The outcome of a pending entry (R81). -/
inductive EntryOutcome where
  | ok
  | noResponse
  | targetError
  | segmentReset
  | abandoned
  deriving DecidableEq, Repr

/-- A pending entry (R69). -/
structure Entry where
  state : EntryState
  requester : Requester
  kind : AccessKind
  space : Space
  address : Nat
  count : Nat
  writeData : Option (List Byte)
  route : Route
  segment : SegmentNumber
  downstream : Nat
  absentPolicy : AbsentPolicy
  orphaned : Bool
  outcome : Option EntryOutcome
  readData : Option (List Byte)
  /-- The discard time remaining with its timer, in units of 64 µs (R84). -/
  discard : Option Timer
  deriving DecidableEq, Repr

/-- The cold reset column of R69. -/
def Entry.cold : Entry where
  state := .free
  requester := 0
  kind := .read
  space := .memory
  address := 0
  count := 1
  writeData := none
  route := .defaultRoute
  segment := 0
  downstream := 0
  absentPolicy := .ones
  orphaned := false
  outcome := none
  readData := none
  discard := none

/-! ### The Segment Engines -/

/-- A posted item (R96): always a MEMORY write. -/
structure PostedItem where
  route : Route
  downstream : Nat
  count : Nat
  data : List Byte
  absentPolicy : AbsentPolicy
  deriving DecidableEq, Repr

/-- An item of a work queue (R95). -/
inductive Item where
  | posted (item : PostedItem)
  | reference (slot : Slot)
  deriving DecidableEq, Repr

/-- The lanes of the segment data path a cycle uses (R115, R116): a byte cycle the lower or the upper half, a word
cycle both. -/
inductive Lanes where
  | low
  | high
  | both
  deriving DecidableEq, Repr

/-- A cycle as it is presented to the segment (R117). `data` holds the bytes of a write cycle, lowest address first. -/
structure Cycle where
  space : Space
  kind : AccessKind
  address : Nat
  lanes : Lanes
  data : List Byte
  deriving DecidableEq, Repr

/-- The current cycle with its cycle timer, in units of 1 µs (R111, R117), and the number by which a target's signal names it (R118,
log 17). -/
structure RunningCycle where
  cycle : Cycle
  timer : Timer
  number : Nat
  deriving DecidableEq, Repr

/-- The state of a Segment Engine (R111). -/
inductive EngineState where
  | offline
  | online
  | faulted
  | resetting
  deriving DecidableEq, Repr

/-- The state an engine takes when its reset pulse ends (R129, R132). -/
inductive ReturnState where
  | online
  | offline
  deriving DecidableEq, Repr

/-- The fault cause of an engine (R111). -/
inductive FaultCause where
  | none
  | targetError
  | noResponseLimit
  deriving DecidableEq, Repr

/-- A Segment Engine with its work queue (R95, R111). The activity, the queue length and the posted count are computed
from these fields (log 12). -/
structure Engine where
  state : EngineState
  returnState : ReturnState
  queue : List Item
  inFlight : Option Item
  current : Option RunningCycle
  /-- The cycles of the in-flight item after the current one: its division, made when it was taken (R113, R170). -/
  remaining : List Cycle
  /-- The bytes kept from the acknowledged read cycles of the in-flight item, in ascending address order (R117, R119). -/
  kept : List Byte
  noResponses : Nat
  faultCause : FaultCause
  /-- The reset pulse timer, in units of 1 µs; stopped is `none`. -/
  resetPulse : Option Timer
  deriving DecidableEq, Repr

/-- The cold reset column of R111, with an empty queue (R135). -/
def Engine.cold : Engine where
  state := .offline
  returnState := .offline
  queue := []
  inFlight := none
  current := none
  remaining := []
  kept := []
  noResponses := 0
  faultCause := .none
  resetPulse := none

/-! ### The Notice Unit -/

/-- The four kinds of notice (R136). -/
inductive NoticeKind where
  | writeLost
  | completionDiscarded
  | windowRetired
  | segmentFaulted
  deriving DecidableEq, Repr

/-- Why a posted write was lost (R136). -/
inductive LossCause where
  | noResponse
  | targetError
  | segmentReset
  | abandoned
  deriving DecidableEq, Repr

/-- What a notice reports: its kind, its subject (the first argument) and its detail (R136). -/
inductive News where
  | writeLost (segment : SegmentNumber) (address : Nat) (cause : LossCause)
  | completionDiscarded (requester : Requester) (slot : Slot) (kind : AccessKind) (address : Nat)
  | windowRetired (window : WindowNumber) (generation : Byte) (reason : RetireReason)
  | segmentFaulted (segment : SegmentNumber) (cause : FaultCause)
  deriving DecidableEq, Repr

/-- A notice of the notice queue (R136). -/
structure Notice where
  news : News
  repeats : Nat
  sequence : Option Byte
  deriving DecidableEq, Repr

/-- The delivery state (R142). -/
inductive Delivery where
  | disabled
  | idle
  | awaitAck
  | stalled
  deriving DecidableEq, Repr

/-- The Notice Unit (R138, R142). -/
structure NoticeUnit where
  queue : List Notice
  delivery : Delivery
  nextSequence : Byte
  attempts : Nat
  /-- The ack timer, in units of 100 µs; stopped is `none`. -/
  ackTimer : Option Timer
  overrun : Bool
  overrunCarried : Bool
  deriving DecidableEq, Repr

/-- The cold and warm reset columns of R142, with an empty queue (R152, R153). -/
def NoticeUnit.cold : NoticeUnit where
  queue := []
  delivery := .disabled
  nextSequence := 0
  attempts := 0
  ackTimer := none
  overrun := false
  overrunCarried := false

/-! ### The settings -/

/-- The data width of a segment (R114). -/
inductive Width where
  | eight
  | sixteen
  deriving DecidableEq, Repr

/-- The five settings that exist once per segment (R158). -/
structure SegmentSettings where
  width : Width
  cycleTimeout : Nat
  noResponseLimit : Nat
  haltOnError : Bool
  resetPulse : Nat
  deriving DecidableEq, Repr

/-- The settings (R158). MANAGEMENT-SET is the mask of R178: bit r for the member r. -/
structure Settings where
  managementSet : BitVec 32
  pendingQuota : Nat
  discardInterval : Nat
  defaultRouteMemory : Option SegmentNumber
  defaultRouteIo : Option SegmentNumber
  defaultAbsentPolicy : AbsentPolicy
  noticeTarget : Option Requester
  noticeAckTimeout : Nat
  segments : Vector SegmentSettings 4
  deriving DecidableEq, Repr

/-- The reset values of the settings of one segment (R158). -/
def SegmentSettings.initial : SegmentSettings where
  width := .eight
  cycleTimeout := 16
  noResponseLimit := 4
  haltOnError := true
  resetPulse := 20

/-- The cold and warm reset values of the settings (R158). -/
def Settings.initial : Settings where
  managementSet := 1
  pendingQuota := 4
  discardInterval := 16
  defaultRouteMemory := none
  defaultRouteIo := none
  defaultAbsentPolicy := .ones
  noticeTarget := none
  noticeAckTimeout := 10
  segments := Vector.replicate 4 SegmentSettings.initial

/-! ### The Upstream Port -/

/-- The reasons of an AGAIN answer (R66). -/
inductive AgainReason where
  | pending
  | busy
  | restarting
  deriving DecidableEq, Repr

/-- The codes of a FAULT answer (R173). -/
inductive FaultCode where
  | malformed
  | unmapped
  | straddle
  | notPermitted
  | windowClosing
  | segmentOffline
  | segmentFaulted
  | noResponse
  | targetError
  | segmentReset
  | abandoned
  | unknownCommand
  | badOperand
  | badWindow
  | inUse
  | notOpen
  | overlap
  | frozen
  | noFreeWindow
  | busy
  | wrongState
  deriving DecidableEq, Repr

/-- The five kinds of answer (R64). A MANAGED answer holds its result block (R176–R178). -/
inductive Answer where
  | data (bytes : List Byte)
  | taken
  | again (reason : AgainReason)
  | fault (code : FaultCode)
  | managed (block : List Byte)
  deriving DecidableEq, Repr

/-- An answer with the requester it is addressed to (R64). -/
structure Reply where
  requester : Requester
  answer : Answer
  deriving DecidableEq, Repr

/-- A NOTICE handed to the port: the values of its send (R143, R174). -/
structure NoticeMessage where
  addressee : Requester
  sequence : Byte
  news : News
  repeats : Nat
  overrun : Bool
  deriving DecidableEq, Repr

/-- The state of the Upstream Port (R48). -/
inductive PortState where
  | running
  | restarting
  deriving DecidableEq, Repr

/-- PWRGOOD and the cold reset (R51): low; high with the 1 ms count running; high with the cold reset ended. -/
inductive Power where
  | off
  | counting (timer : Timer)
  | on
  deriving DecidableEq, Repr

/-! ### The whole part -/

/-- The state of the part, with the queue of commands that wait. -/
structure State where
  power : Power
  /-- WARM_N is asserted. -/
  warmN : Bool
  port : PortState
  /-- The answers determined and not yet sent, in answer order (R67). -/
  answers : List Reply
  /-- The NOTICE messages handed to the port and not yet sent (R68). -/
  handed : List NoticeMessage
  /-- The messages that have left the port, oldest first: the model's own record of what was sent (log 8). -/
  link : List (List Byte)
  windows : Vector Window 48
  entries : Vector Entry 16
  engines : Vector Engine 4
  /-- How many cycles the engines have started, the number of the next one: the model's own, which no reset clears (log 17). -/
  cyclesStarted : Nat
  notices : NoticeUnit
  settings : Settings
  /-- The commands that wait, first in, first out. -/
  pending : List Instr
  deriving DecidableEq, Repr

/-- No rule of the spec stops the part: a step of it has no fault. -/
inductive Fault where
  deriving DecidableEq, Repr

/-- Why a step has no meaning. -/
inductive Refusal where
  /-- Raised by an arm of `exec` whose command has no meaning in the model yet; safe. No arm raises it. -/
  | notModelled (mnemonic : String)
  deriving DecidableEq, Repr

/-- The part right after a cold reset: R51, with the cold reset values of every block and WARM_N released (log 6). -/
def State.reset : State where
  power := .on
  warmN := false
  port := .running
  answers := []
  handed := []
  link := []
  windows := Vector.replicate 48 Window.cold
  entries := Vector.replicate 16 Entry.cold
  engines := Vector.replicate 4 Engine.cold
  cyclesStarted := 0
  notices := NoticeUnit.cold
  settings := Settings.initial
  pending := []

end Sys2Proof.Machine
end

