-- ==== Sys2Proof/Machine/Flags.lean ====
section
/-! DEFINITION. The codes and the flag bytes of the messages the part sends: R173 to R178. -/

namespace Sys2Proof.Machine

/-- The AGAIN reason codes (R173). -/
def AgainReason.code : AgainReason → Byte
  | .pending => 0x01
  | .busy => 0x02
  | .restarting => 0x03

/-- The fault code values (R173). -/
def FaultCode.code : FaultCode → Byte
  | .malformed => 0x01
  | .unmapped => 0x02
  | .straddle => 0x03
  | .notPermitted => 0x04
  | .windowClosing => 0x05
  | .segmentOffline => 0x06
  | .segmentFaulted => 0x07
  | .noResponse => 0x08
  | .targetError => 0x09
  | .segmentReset => 0x0A
  | .abandoned => 0x0B
  | .unknownCommand => 0x20
  | .badOperand => 0x21
  | .badWindow => 0x22
  | .inUse => 0x23
  | .notOpen => 0x24
  | .overlap => 0x25
  | .frozen => 0x26
  | .noFreeWindow => 0x27
  | .busy => 0x28
  | .wrongState => 0x29

/-- The space codes (R175). -/
def Space.code : Space → Byte
  | .memory => 0x00
  | .io => 0x01

/-- The write policy codes (R175). -/
def WritePolicy.code : WritePolicy → Byte
  | .posted => 0x00
  | .delayed => 0x01

/-- The absent policy codes (R175). -/
def AbsentPolicy.code : AbsentPolicy → Byte
  | .ones => 0x00
  | .fault => 0x01

/-- The window state codes (R175). -/
def WindowState.code : WindowState → Byte
  | .free => 0x00
  | .opened => 0x01
  | .closing => 0x02

/-- The retire reason codes (R174). -/
def RetireReason.code : RetireReason → Byte
  | .closed => 0x01
  | .leaseExpired => 0x02
  | .abandoned => 0x03

/-- The entry kind codes (R174, R177). -/
def AccessKind.code : AccessKind → Byte
  | .read => 0x01
  | .write => 0x02

/-- The entry state codes (R177). -/
def EntryState.code : EntryState → Byte
  | .free => 0x00
  | .queued => 0x01
  | .issued => 0x02
  | .complete => 0x03

/-- The result codes of outcomes (R174). -/
def EntryOutcome.code : EntryOutcome → Byte
  | .ok => 0x01
  | .noResponse => 0x02
  | .targetError => 0x03
  | .segmentReset => 0x04
  | .abandoned => 0x05

/-- The result codes of WRITE-LOST causes (R174). -/
def LossCause.code : LossCause → Byte
  | .noResponse => 0x02
  | .targetError => 0x03
  | .segmentReset => 0x04
  | .abandoned => 0x05

/-- The result codes of fault causes (R174). -/
def FaultCause.code : FaultCause → Byte
  | .none => 0x00
  | .targetError => 0x03
  | .noResponseLimit => 0x06

/-- The engine state codes (R177). -/
def EngineState.code : EngineState → Byte
  | .offline => 0x00
  | .online => 0x01
  | .faulted => 0x02
  | .resetting => 0x03

/-- The return state codes inside RESETTING (R177). -/
def ReturnState.code : ReturnState → Byte
  | .offline => 0x00
  | .online => 0x01

/-- The return state byte of SEGMENT-STATUS: FFh NONE outside RESETTING (R133, R177). -/
def Engine.returnStateByte (e : Engine) : Byte :=
  if e.state = .resetting then e.returnState.code else 0xFF

/-- The delivery state codes (R177). -/
def Delivery.code : Delivery → Byte
  | .disabled => 0x00
  | .idle => 0x01
  | .awaitAck => 0x02
  | .stalled => 0x03

/-- The notice kind codes (R174). -/
def NoticeKind.code : NoticeKind → Byte
  | .writeLost => 0x01
  | .completionDiscarded => 0x02
  | .windowRetired => 0x03
  | .segmentFaulted => 0x04

/-- A byte with one flag in bit `bit`. -/
def flagBit (bit : Nat) (flag : Bool) : Byte := if flag then BitVec.ofNat 8 (2 ^ bit) else 0

/-- The flags byte of QUERY: bit 0 frozen, bit 1 a lease is present (R176). -/
def Window.flags (w : Window) : Byte := flagBit 0 w.frozen ||| flagBit 1 w.lease.isSome

/-- The flags byte of PENDING-STATUS for one slot: bit 0 orphaned (R177). -/
def Entry.flags (e : Entry) : Byte := flagBit 0 e.orphaned

/-- The flags byte of NOTICE-STATUS: bit 0 the head has a sequence, bit 1 the overrun flag (R177). -/
def NoticeUnit.flags (u : NoticeUnit) : Byte :=
  flagBit 0 (u.queue.head?.any (·.sequence.isSome)) ||| flagBit 1 u.overrun

/-- The flags byte of a NOTICE: bit 0 the overrun flag (R174). -/
def NoticeMessage.flags (m : NoticeMessage) : Byte := flagBit 0 m.overrun

end Sys2Proof.Machine
end

