-- ==== Sys2Proof/Machine/Operands.lean ====
section
/-! DEFINITION. Every operand form: the requester of a header, the bodies of READ and WRITE (R172), the operand blocks of
the management commands (R175–R178) and the names and value encodings of the settings (R178). -/

namespace Sys2Proof.Machine

/-! ### The header -/

/-- The requester in bits 4:0 of a requester byte (R171). -/
def requesterOf (b : Byte) : Requester := ⟨b.toNat % 32, Nat.mod_lt _ (by decide)⟩

/-- The requester an ask is answered to: a message of fewer than 2 bytes carries none (R171). -/
def sender : Header → Option Requester
  | .whole requester _ _ => some (requesterOf requester)
  | .cut (requester :: _) => some (requesterOf requester)
  | .cut [] => none

/-- The header checks of R171: the message is whole, its length is 4 plus its body length, and the reserved bits and the
byte at offset 3 are zero. -/
def headerOk (h : Header) (bodyLength : Nat) : Bool :=
  match h with
  | .whole requester declared reserved =>
    decide (declared.toNat = bodyLength) && decide (requester.toNat < 32) && decide (reserved = 0)
  | .cut _ => false

/-! ### READ and WRITE -/

/-- A READ or WRITE ask (R52, R53). `data` is the data field of a WRITE. -/
structure Ask where
  requester : Requester
  kind : AccessKind
  space : Space
  address : Nat
  count : Nat
  data : Option (List Byte)
  deriving DecidableEq, Repr

/-- The space codes (R172, R175). -/
def Space.ofCode (b : Byte) : Option Space :=
  if b = 0x00 then some .memory else if b = 0x01 then some .io else none

/-- The counts and addresses that are not malformed (R53, R172). -/
def accessFits (space : Space) (address count : Nat) : Bool :=
  match space with
  | .memory => decide (1 ≤ count) && decide (count ≤ 32)
  | .io => decide (1 ≤ count) && decide (count ≤ 4) && decide (address ≤ 0xFFFF) && decide (address % 4 + count ≤ 4)

/-- The READ or WRITE ask a body spells; `none` where it is malformed (R58, R172). -/
def parseAsk (kind : AccessKind) (requester : Requester) (body : List Byte) : Option Ask :=
  if body.length < 6 then none
  else
    match Space.ofCode (byteAt body 0) with
    | none => none
    | some space =>
      let count := (byteAt body 1).toNat
      let address := fieldAt body 2 4
      let data := body.drop 6
      if accessFits space address count then
        match kind with
        | .read => if data = [] then some ⟨requester, .read, space, address, count, none⟩ else none
        | .write => if data.length = count then some ⟨requester, .write, space, address, count, some data⟩ else none
      else none

/-! ### Window commands -/

/-- The write policy codes (R175). -/
def WritePolicy.ofCode (b : Byte) : Option WritePolicy :=
  if b = 0x00 then some .posted else if b = 0x01 then some .delayed else none

/-- The absent policy codes (R175). -/
def AbsentPolicy.ofCode (b : Byte) : Option AbsentPolicy :=
  if b = 0x00 then some .ones else if b = 0x01 then some .fault else none

/-- A segment field: 0–3 (R175, R177). -/
def segmentOf (b : Byte) : Option SegmentNumber :=
  if h : b.toNat < 4 then some ⟨b.toNat, h⟩ else none

/-- A window number: 0–47 (R24, R175). -/
def windowOf (b : Byte) : Option WindowNumber :=
  if h : b.toNat < 48 then some ⟨b.toNat, h⟩ else none

/-- A slot number: 0–15 (R177). -/
def slotOf (b : Byte) : Option Slot :=
  if h : b.toNat < 16 then some ⟨b.toNat, h⟩ else none

/-- A requester operand: 0–31 (R175, R177). -/
def requesterOperand (b : Byte) : Option Requester :=
  if h : b.toNat < 32 then some ⟨b.toNat, h⟩ else none

/-- The requesters of a list of places, each 0–31. -/
def requestersOf : List Byte → Option (List Requester)
  | [] => some []
  | b :: bs =>
    match requesterOperand b, requestersOf bs with
    | some r, some rs => some (r :: rs)
    | _, _ => none

/-- An owner list: a count of 0–4, then four places; the places beyond the count are zero (R175). -/
def ownersOf (count : Byte) (places : List Byte) : Option (List Requester) :=
  if count.toNat ≤ 4 ∧ (places.drop count.toNat).all (· == 0) then requestersOf (places.take count.toNat) else none

/-- Operand byte 0 of a command that names a window, checked as R175 orders: an empty block, then the number. -/
def windowOperand (block : List Byte) : Except FaultCode WindowNumber :=
  match block with
  | [] => .error .badOperand
  | b :: _ =>
    match windowOf b with
    | some w => .ok w
    | none => .error .badWindow

/-- The operands of OPEN (R25); `window` is absent for ANY. -/
structure OpenOperands where
  window : Option WindowNumber
  space : Space
  segment : SegmentNumber
  writePolicy : WritePolicy
  absentPolicy : AbsentPolicy
  owners : List Requester
  lease : Nat
  base : Nat
  limit : Nat
  segmentBase : Nat
  deriving DecidableEq, Repr

/-- The window number of OPEN: FFh stands for ANY (R175). -/
def openWindowOperand (block : List Byte) : Except FaultCode (Option WindowNumber) :=
  match block with
  | [] => .error .badOperand
  | b :: _ =>
    if b = 0xFF then .ok none
    else
      match windowOf b with
      | some w => .ok (some w)
      | none => .error .badWindow

/-- The operand block of OPEN (R176). -/
def parseOpen (block : List Byte) : Except FaultCode OpenOperands :=
  match openWindowOperand block with
  | .error code => .error code
  | .ok window =>
    if block.length = 24 then
      match Space.ofCode (byteAt block 1), segmentOf (byteAt block 2), WritePolicy.ofCode (byteAt block 3),
        AbsentPolicy.ofCode (byteAt block 4), ownersOf (byteAt block 5) ((block.drop 6).take 4) with
      | some space, some segment, some writePolicy, some absentPolicy, some owners =>
        .ok { window, space, segment, writePolicy, absentPolicy, owners,
              lease := fieldAt block 10 2, base := fieldAt block 12 4, limit := fieldAt block 16 4,
              segmentBase := fieldAt block 20 4 }
      | _, _, _, _, _ => .error .badOperand
    else .error .badOperand

/-- The operands of AMEND (R29): each value present or absent. -/
structure AmendOperands where
  window : WindowNumber
  base : Option Nat
  limit : Option Nat
  segment : Option SegmentNumber
  segmentBase : Option Nat
  writePolicy : Option WritePolicy
  absentPolicy : Option AbsentPolicy
  owners : Option (List Requester)
  deriving DecidableEq, Repr

/-- A field of AMEND (R176): with its presence bit set, its value, which must be in its encoding; with the bit clear,
absent, and every byte of the field must be zero. The outer option is `none` where the block is refused. -/
def amendField {α : Type} (present : Bool) (bytes : List Byte) (value : Option α) : Option (Option α) :=
  if present then value.map some
  else if bytes.all (· == 0) then some none
  else none

/-- The operand block of AMEND (R176). -/
def parseAmend (block : List Byte) : Except FaultCode AmendOperands :=
  match windowOperand block with
  | .error code => .error code
  | .ok window =>
    let presence := byteAt block 1
    let field (offset width : Nat) : List Byte := (block.drop offset).take width
    if block.length = 22 ∧ presence.getLsbD 7 = false then
      match amendField (presence.getLsbD 0) (field 10 4) (some (fieldAt block 10 4)),
        amendField (presence.getLsbD 1) (field 14 4) (some (fieldAt block 14 4)),
        amendField (presence.getLsbD 2) (field 2 1) (segmentOf (byteAt block 2)),
        amendField (presence.getLsbD 3) (field 18 4) (some (fieldAt block 18 4)),
        amendField (presence.getLsbD 4) (field 3 1) (WritePolicy.ofCode (byteAt block 3)),
        amendField (presence.getLsbD 5) (field 4 1) (AbsentPolicy.ofCode (byteAt block 4)),
        amendField (presence.getLsbD 6) (field 5 5) (ownersOf (byteAt block 5) (field 6 4)) with
      | some base, some limit, some segment, some segmentBase, some writePolicy, some absentPolicy, some owners =>
        .ok { window, base, limit, segment, segmentBase, writePolicy, absentPolicy, owners }
      | _, _, _, _, _, _, _ => .error .badOperand
    else .error .badOperand

/-- The operand block of RENEW (R176): a window and a lease of 0–65535. -/
def parseRenew (block : List Byte) : Except FaultCode (WindowNumber × Nat) :=
  match windowOperand block with
  | .error code => .error code
  | .ok window => if block.length = 3 then .ok (window, fieldAt block 1 2) else .error .badOperand

/-- The operand block of FREEZE and QUERY (R176): a window. -/
def parseWindow (block : List Byte) : Except FaultCode WindowNumber :=
  match windowOperand block with
  | .error code => .error code
  | .ok window => if block.length = 1 then .ok window else .error .badOperand

/-- The operand block of CLOSE (R176): a window, and ABANDON in bit 0 of byte 1, bits 7:1 zero. -/
def parseClose (block : List Byte) : Except FaultCode (WindowNumber × Bool) :=
  match windowOperand block with
  | .error code => .error code
  | .ok window =>
    if block.length = 2 ∧ (byteAt block 1).toNat < 2 then .ok (window, (byteAt block 1).getLsbD 0)
    else .error .badOperand

/-- The operand block of LOOKUP (R47, R176): a space and an address, below 10000h in IO. -/
def parseLookup (block : List Byte) : Except FaultCode (Space × Nat) :=
  if block.length = 5 then
    match Space.ofCode (byteAt block 0) with
    | none => .error .badOperand
    | some .memory => .ok (.memory, fieldAt block 1 4)
    | some .io => if fieldAt block 1 4 ≤ 0xFFFF then .ok (.io, fieldAt block 1 4) else .error .badOperand
  else .error .badOperand

/-! ### Segment, pending and notice commands -/

/-- The operand block of the segment commands (R126, R177). -/
def parseSegment (block : List Byte) : Except FaultCode SegmentNumber :=
  if block.length = 1 then
    match segmentOf (byteAt block 0) with
    | some n => .ok n
    | none => .error .badOperand
  else .error .badOperand

/-- The operand block of PENDING-STATUS (R91, R177): a slot, or FFh SUMMARY as `none`. -/
def parsePendingStatus (block : List Byte) : Except FaultCode (Option Slot) :=
  if block.length = 1 then
    if byteAt block 0 = 0xFF then .ok none
    else
      match slotOf (byteAt block 0) with
      | some slot => .ok (some slot)
      | none => .error .badOperand
  else .error .badOperand

/-- The operand block of CANCEL-REQUESTER (R87, R177). -/
def parseRequester (block : List Byte) : Except FaultCode Requester :=
  if block.length = 1 then
    match requesterOperand (byteAt block 0) with
    | some r => .ok r
    | none => .error .badOperand
  else .error .badOperand

/-! ### Settings -/

/-- The name of a setting, with its segment for a per-segment setting (R158, R178). -/
inductive SettingName where
  | managementSet
  | pendingQuota
  | discardInterval
  | defaultRouteMemory
  | defaultRouteIo
  | defaultAbsentPolicy
  | noticeTarget
  | noticeAckTimeout
  | width (segment : SegmentNumber)
  | cycleTimeout (segment : SegmentNumber)
  | noResponseLimit (segment : SegmentNumber)
  | haltOnError (segment : SegmentNumber)
  | resetPulse (segment : SegmentNumber)
  deriving DecidableEq, Repr

/-- A setting that exists once for the part: its segment number field holds 0 (R160). -/
def onceSetting (segment : Byte) (name : SettingName) : Option SettingName :=
  if segment = 0 then some name else none

/-- The setting that a code and a segment number field name (R160, R178); `none` is refused BAD-OPERAND. -/
def SettingName.ofCode (code segment : Byte) : Option SettingName :=
  if code = 0x01 then onceSetting segment .managementSet
  else if code = 0x02 then onceSetting segment .pendingQuota
  else if code = 0x03 then onceSetting segment .discardInterval
  else if code = 0x04 then onceSetting segment .defaultRouteMemory
  else if code = 0x05 then onceSetting segment .defaultRouteIo
  else if code = 0x06 then onceSetting segment .defaultAbsentPolicy
  else if code = 0x07 then onceSetting segment .noticeTarget
  else if code = 0x08 then onceSetting segment .noticeAckTimeout
  else if code = 0x10 then (segmentOf segment).map .width
  else if code = 0x11 then (segmentOf segment).map .cycleTimeout
  else if code = 0x12 then (segmentOf segment).map .noResponseLimit
  else if code = 0x13 then (segmentOf segment).map .haltOnError
  else if code = 0x14 then (segmentOf segment).map .resetPulse
  else none

/-- The value FFFF_FFFFh, which stands for NONE (R178). -/
def noneValue : Nat := 0xFFFFFFFF

/-- The value encoding of a default route and of NOTICE-TARGET (R178). -/
def optionValue {n : Nat} : Option (Fin n) → Nat
  | none => noneValue
  | some k => k.val

/-- The default route or NOTICE-TARGET that a value encodes; the outer option is `none` outside the encoding (R178). -/
def ofOptionValue (n value : Nat) : Option (Option (Fin n)) :=
  if value = noneValue then some none
  else if h : value < n then some (some ⟨value, h⟩)
  else none

/-- The value of a setting in the encoding of R178. -/
def Settings.value (s : Settings) : SettingName → Nat
  | .managementSet => s.managementSet.toNat
  | .pendingQuota => s.pendingQuota
  | .discardInterval => s.discardInterval
  | .defaultRouteMemory => optionValue s.defaultRouteMemory
  | .defaultRouteIo => optionValue s.defaultRouteIo
  | .defaultAbsentPolicy => s.defaultAbsentPolicy.code.toNat
  | .noticeTarget => optionValue s.noticeTarget
  | .noticeAckTimeout => s.noticeAckTimeout
  | .width n => match s.segments[n].width with
    | .eight => 8
    | .sixteen => 16
  | .cycleTimeout n => s.segments[n].cycleTimeout
  | .noResponseLimit n => s.segments[n].noResponseLimit
  | .haltOnError n => if s.segments[n].haltOnError then 1 else 0
  | .resetPulse n => s.segments[n].resetPulse

/-- A number in a range, or `none`. -/
def inRange (low high value : Nat) : Option Nat := if low ≤ value ∧ value ≤ high then some value else none

/-- The settings of one segment changed. -/
def Settings.setSegment (s : Settings) (n : SegmentNumber) (v : SegmentSettings) : Settings :=
  { s with segments := s.segments.set n.val v }

/-- The settings after a write of a value in its encoding and range (R158, R178); `none` outside them (R161, check 4). -/
def Settings.write (s : Settings) (name : SettingName) (value : Nat) : Option Settings :=
  match name with
  | .managementSet => if value = 0 then none else some { s with managementSet := BitVec.ofNat 32 value }
  | .pendingQuota => (inRange 1 16 value).map fun v => { s with pendingQuota := v }
  | .discardInterval => (inRange 1 255 value).map fun v => { s with discardInterval := v }
  | .defaultRouteMemory => (ofOptionValue 4 value).map fun v => { s with defaultRouteMemory := v }
  | .defaultRouteIo => (ofOptionValue 4 value).map fun v => { s with defaultRouteIo := v }
  | .defaultAbsentPolicy =>
    if value = 0 then some { s with defaultAbsentPolicy := .ones }
    else if value = 1 then some { s with defaultAbsentPolicy := .fault }
    else none
  | .noticeTarget => (ofOptionValue 32 value).map fun v => { s with noticeTarget := v }
  | .noticeAckTimeout => (inRange 1 255 value).map fun v => { s with noticeAckTimeout := v }
  | .width n =>
    if value = 8 then some (s.setSegment n { s.segments[n] with width := .eight })
    else if value = 16 then some (s.setSegment n { s.segments[n] with width := .sixteen })
    else none
  | .cycleTimeout n => (inRange 1 255 value).map fun v => s.setSegment n { s.segments[n] with cycleTimeout := v }
  | .noResponseLimit n => (inRange 1 15 value).map fun v => s.setSegment n { s.segments[n] with noResponseLimit := v }
  | .haltOnError n =>
    if value = 0 then some (s.setSegment n { s.segments[n] with haltOnError := false })
    else if value = 1 then some (s.setSegment n { s.segments[n] with haltOnError := true })
    else none
  | .resetPulse n => (inRange 1 255 value).map fun v => s.setSegment n { s.segments[n] with resetPulse := v }

end Sys2Proof.Machine
end

