-- ==== Sys2Proof/Machine/Ops.lean ====
section
/-! DEFINITION. The named operations over the part's state: writing one record, answering, raising a notice, counting and
retiring a window, ending a pending entry, the port's first steps for an ask and the path of a MANAGE ask. -/

namespace Sys2Proof.Machine

/-! ### Timers -/

/-- A timer started at `n` units of `unit` microseconds (R1). -/
def Timer.start (unit n : Nat) : Timer := ⟨n, unit⟩

/-- All but the last unit of a timer has passed: it may expire from now on (R1, log 1). -/
def Timer.mayExpire (t : Timer) : Bool := decide (t.units ≤ 1)

/-- A timer runs and may expire (R1, log 1). -/
def mayExpire (t : Option Timer) : Bool := t.any Timer.mayExpire

/-- The time left in whole units, as the status commands report it; 0 where the timer is stopped (log 3). -/
def unitsLeft (t : Option Timer) : Nat :=
  match t with
  | some t => t.units
  | none => 0

/-! ### Numbers in ascending order -/

/-- The window records in ascending order. -/
def allWindows : List WindowNumber := List.finRange 48

/-- The slots in ascending order. -/
def allSlots : List Slot := List.finRange 16

/-- The segments in ascending order. -/
def allSegments : List SegmentNumber := List.finRange 4

/-! ### Writing records -/

/-- Every record of a table replaced by what `f` makes of it. -/
def everyRecord {α : Type} {n : Nat} (records : Vector α n) (f : α → α) : Vector α n := Vector.ofFn fun i => f records[i]

/-- A window record replaced. -/
def State.setWindow (s : State) (w : WindowNumber) (r : Window) : State :=
  { s with windows := s.windows.set w.val r }

/-- A pending entry replaced. -/
def State.setEntry (s : State) (slot : Slot) (e : Entry) : State :=
  { s with entries := s.entries.set slot.val e }

/-- A Segment Engine replaced. -/
def State.setEngine (s : State) (n : SegmentNumber) (e : Engine) : State :=
  { s with engines := s.engines.set n.val e }

/-- The Notice Unit replaced. -/
def State.setNotices (s : State) (u : NoticeUnit) : State := { s with notices := u }

/-- An answer determined: it takes the last place in answer order (R67). -/
def State.answer (s : State) (requester : Requester) (a : Answer) : State :=
  { s with answers := s.answers ++ [⟨requester, a⟩] }

/-! ### Notices -/

/-- The kind and the subject of a notice, which decide coalescing (R136, R139). -/
def News.key : News → NoticeKind × Nat
  | .writeLost segment _ _ => (.writeLost, segment.val)
  | .completionDiscarded requester _ _ _ => (.completionDiscarded, requester.val)
  | .windowRetired window _ _ => (.windowRetired, window.val)
  | .segmentFaulted segment _ => (.segmentFaulted, segment.val)

/-- A repeat count raised by `n`: 255 is the most it reaches (R139, R141). -/
def Notice.repeated (x : Notice) (n : Nat) : Notice :=
  { x with repeats := min Config.repeatLimit (x.repeats + n) }

/-- `n` occurrences folded into the first notice of a list with a given kind and subject; `none` where there is none. -/
def coalesce (key : NoticeKind × Nat) (n : Nat) : List Notice → Option (List Notice)
  | [] => none
  | x :: xs => if x.news.key = key then some (x.repeated n :: xs) else (coalesce key n xs).map (x :: ·)

/-- How many notices at the head of the queue are in flight: the head in AWAIT-ACK, else none (R138, R142). -/
def NoticeUnit.flying (u : NoticeUnit) : Nat := if u.delivery = .awaitAck then 1 else 0

/-- A raise is taken (R139): coalesced into a notice that is not in flight, appended, or lost to overrun (R140). No raise
carries more than 8 occurrences (R137), so the bound of a repeat count (R136) takes nothing from an appended notice. -/
def NoticeUnit.raise (u : NoticeUnit) (news : News) (n : Nat) : NoticeUnit :=
  match coalesce news.key n (u.queue.drop u.flying) with
  | some rest => { u with queue := u.queue.take u.flying ++ rest }
  | none =>
    if u.queue.length < Config.noticeCapacity then { u with queue := u.queue ++ [⟨news, min Config.repeatLimit n, none⟩] }
    else { u with overrun := true }

/-- A notice of `n` occurrences is raised (R137). -/
def State.raise (s : State) (news : News) (n : Nat) : State := s.setNotices (s.notices.raise news n)

/-- The repeat count of the first notice with a given kind and subject, and the list without it. -/
def takeKey (key : NoticeKind × Nat) : List Notice → Option (Nat × List Notice)
  | [] => none
  | x :: xs =>
    if x.news.key = key then some (x.repeats, xs)
    else (takeKey key xs).map fun p => (p.1, x :: p.2)

/-- The head leaves flight without being removed: a later notice of its kind and subject is merged into it (R141). -/
def mergeHead : List Notice → List Notice
  | [] => []
  | x :: xs =>
    match takeKey x.news.key xs with
    | some (n, rest) => x.repeated n :: rest
    | none => x :: xs

/-! ### The Window Table -/

/-- A CLOSING window retires: it becomes FREE and WINDOW-RETIRED is raised (R44, R45). -/
def State.retire (s : State) (w : WindowNumber) : State :=
  let r := s.windows[w]
  (s.setWindow w { r with state := .free }).raise (.windowRetired w r.generation r.retireReason) 1

/-- A CLOSING window whose in-flight count is 0 retires at the claim (R44). -/
def State.settle (s : State) (w : WindowNumber) : State :=
  if s.windows[w].state = .closing ∧ s.windows[w].inFlight = 0 then s.retire w else s

/-- The in-flight count of a window lowered by `n` items that have ended; a CLOSING window may retire (R21). -/
def State.lower (s : State) (w : WindowNumber) (n : Nat) : State :=
  (s.setWindow w { s.windows[w] with inFlight := s.windows[w].inFlight - n }).settle w

/-- The route names the window at its present generation (R4). -/
def Route.names (r : Route) (s : State) (w : WindowNumber) : Bool :=
  decide (r = .window w s.windows[w].generation)

/-- One item with this route has ended (R21). -/
def State.lowerRoute (s : State) (r : Route) : State :=
  match r with
  | .defaultRoute => s
  | .window w _ => if r.names s w then s.lower w 1 else s

/-- Several items have ended at one claim: each window's count falls by the items that named it, and the windows that
retire do so in ascending order of their numbers (R88, R130). -/
def State.lowerRoutes (s : State) (routes : List Route) : State :=
  allWindows.foldl
    (fun t w => if routes.any (·.names s w) then t.lower w (routes.countP (·.names s w)) else t) s

/-- One item with this route has been accepted (R20). -/
def State.raiseRoute (s : State) (r : Route) : State :=
  match r with
  | .defaultRoute => s
  | .window w _ =>
    if r.names s w then s.setWindow w { s.windows[w] with inFlight := s.windows[w].inFlight + 1 } else s

/-! ### The Pending Table -/

/-- The entry is occupied (R69). -/
def Entry.occupied (e : Entry) : Bool := decide (e.state ≠ .free)

/-- An entry becomes FREE (R69): its outcome, read data, discard timer and orphaned flag go. -/
def Entry.freed (e : Entry) : Entry :=
  { e with state := .free, orphaned := false, outcome := none, readData := none, discard := none }

/-- An entry becomes COMPLETE with an outcome; its discard timer starts at `interval` units (R80, R84). -/
def Entry.completed (e : Entry) (outcome : EntryOutcome) (readData : Option (List Byte)) (interval : Nat) : Entry :=
  { e with state := .complete, outcome := some outcome, readData,
           discard := some (Timer.start Config.discardUnit interval) }

/-- A slot's entry becomes FREE; the window's count is lowered apart. -/
def State.freeEntry (s : State) (slot : Slot) : State := s.setEntry slot s.entries[slot].freed

/-- A slot's entry becomes COMPLETE (R80, R82, R83): the interval is DISCARD-INTERVAL at this claim (R84). -/
def State.completeEntry (s : State) (slot : Slot) (outcome : EntryOutcome) (readData : Option (List Byte)) : State :=
  s.setEntry slot (s.entries[slot].completed outcome readData s.settings.discardInterval)

/-- A slot's entry is freed and the count of its window lowered: it has ended (R21). -/
def State.endEntry (s : State) (slot : Slot) : State :=
  (s.freeEntry slot).lowerRoute s.entries[slot].route

/-! ### The work queues -/

/-- The item is a posted item. -/
def Item.isPosted : Item → Bool
  | .posted _ => true
  | .reference _ => false

/-- The activity is BUSY while an item is in flight (R111). -/
def Engine.busy (e : Engine) : Bool := e.inFlight.isSome

/-- The items the engine holds: the one in flight and then its list. -/
def Engine.items (e : Engine) : List Item := e.inFlight.toList ++ e.queue

/-- The posted count: posted items in the list and the one in flight (R95). -/
def Engine.postedCount (e : Engine) : Nat := e.items.countP Item.isPosted

/-- The queue length: items in the list (R95). -/
def Engine.queueLength (e : Engine) : Nat := e.queue.length

/-- The posted items of a list, in its order. -/
def postedItems (items : List Item) : List PostedItem :=
  items.filterMap fun
    | .posted p => some p
    | .reference _ => none

/-- The slots a list refers to, in its order. -/
def referencedSlots (items : List Item) : List Slot :=
  items.filterMap fun
    | .posted _ => none
    | .reference slot => some slot

/-- Items withdrawn from every list: those that remain keep their order (R107). -/
def State.withdraw (s : State) (gone : Item → Bool) : State :=
  { s with engines := everyRecord s.engines fun e => { e with queue := e.queue.filter fun i => !gone i } }

/-- One item joins the tail of a segment's list (R97, R98). -/
def State.enqueue (s : State) (n : SegmentNumber) (i : Item) : State :=
  s.setEngine n { s.engines[n] with queue := s.engines[n].queue ++ [i] }

/-- A segment's reset line: asserted while its engine is OFFLINE or RESETTING (R112), and while PWRGOOD is low (R179). -/
def State.resetLine (s : State) (n : SegmentNumber) : Bool :=
  decide (s.power = .off ∨ s.engines[n].state = .offline ∨ s.engines[n].state = .resetting)

/-! ### The port and the Management Unit -/

/-- An ask at the Upstream Port: what the port does before it hands the ask to a block.

While the cold reset lasts the ask is not received (R51). A message with no requester byte is discarded (R171). In
RESTARTING it is answered AGAIN RESTARTING (R57). A header or length out of the layouts of R171 is answered FAULT MALFORMED
(R58). Otherwise `handle` gives the answer and the state it leaves. -/
def atPort (h : Header) (bodyLength : Nat) (handle : Requester → State → State × Answer) (s : State) : State :=
  if s.power = .on then
    match sender h with
    | none => s
    | some r =>
      if s.port = .restarting then s.answer r (.again .restarting)
      else if headerOk h bodyLength then (handle r s).1.answer r (handle r s).2
      else s.answer r (.fault .malformed)
  else s

/-- A management command at the block that owns it: the state it leaves and its result block, or the code that refuses it.
A refused command changes no state (R157). -/
abbrev Command := State → Except FaultCode (State × List Byte)

/-- A command's answer: MANAGED with its result block, or FAULT with one code (R157). -/
def runCommand (c : Command) (s : State) : State × Answer :=
  match c s with
  | .ok (t, block) => (t, .managed block)
  | .error code => (s, .fault code)

/-- The requester is a member of MANAGEMENT-SET (R155). -/
def State.permits (s : State) (r : Requester) : Bool := s.settings.managementSet.getLsbD r.val

/-- The path of a MANAGE ask of a defined command (R54, R154): its operand block is at most 24 bytes, else it is malformed;
then the permission check (R155); then the owning block takes the command. -/
def manage (h : Header) (operands : List Byte) (c : Command) (s : State) : State :=
  atPort h (operands.length + 1)
    (fun r s =>
      if Config.operandLimit < operands.length then (s, .fault .malformed)
      else if s.permits r then runCommand c s
      else (s, .fault .notPermitted)) s

end Sys2Proof.Machine
end

