-- ==== Sys2Proof/Machine/Access.lean ====
section
/-! DEFINITION. READ and WRITE: matching in the Pending Table (R75–R78), lookup, checks and translation in the Window Table
(R9–R18), and the hand-off to a work queue (R97) or to the Pending Table (R72–R74). -/

namespace Sys2Proof.Machine

/-! ### Spaces -/

/-- The granule of a space (R3). -/
def Space.granule : Space → Nat
  | .memory => 16
  | .io => 4

/-- The segment address maximum of a space (R3). -/
def Space.segmentMaximum : Space → Nat
  | .memory => 0xFFFFFF
  | .io => 0xFFFF

/-- The default route setting of a space (R17). -/
def Settings.defaultRoute (s : Settings) : Space → Option SegmentNumber
  | .memory => s.defaultRouteMemory
  | .io => s.defaultRouteIo

/-! ### Matching -/

/-- The ask repeats the ask of an entry: the match condition of R75. -/
def Entry.isRepeatedBy (e : Entry) (a : Ask) : Bool :=
  e.occupied && !e.orphaned && decide (e.requester = a.requester) && decide (e.kind = a.kind)
    && decide (e.space = a.space) && decide (e.address = a.address) && decide (e.count = a.count)
    && (decide (a.kind = .read) || decide (e.writeData = a.data))

/-- The slot whose entry the ask matches (R75). -/
def State.matching (s : State) (a : Ask) : Option Slot :=
  allSlots.find? fun slot => s.entries[slot].isRepeatedBy a

/-- `count` bytes of FFh (R65). -/
def onesBytes (count : Nat) : List Byte := List.replicate count 0xFF

/-- The answer that delivers an outcome (R77). -/
def Entry.delivery (e : Entry) : Answer :=
  match e.outcome with
  | some .noResponse =>
    match e.absentPolicy, e.kind with
    | .ones, .read => .data (onesBytes e.count)
    | .ones, .write => .taken
    | .fault, _ => .fault .noResponse
  | some .targetError => .fault .targetError
  | some .segmentReset => .fault .segmentReset
  | some .abandoned => .fault .abandoned
  | _ =>
    match e.kind with
    | .read => .data (e.readData.getD [])
    | .write => .taken

/-- The answer to an ask that matches an entry: AGAIN PENDING (R76), or the outcome, which frees the entry (R77). -/
def State.collect (s : State) (slot : Slot) : State × Answer :=
  if s.entries[slot].state = .complete then (s.endEntry slot, s.entries[slot].delivery)
  else (s, .again .pending)

/-! ### Lookup -/

/-- The window takes part in lookups: it is OPEN or CLOSING (R4, R9). -/
def Window.visible (w : Window) : Bool := decide (w.state ≠ .free)

/-- The address lies in the window's range, in its space (R9). -/
def Window.holds (w : Window) (space : Space) (address : Nat) : Bool :=
  w.visible && decide (w.space = space) && decide (w.base ≤ address) && decide (address ≤ w.limit)

/-- The window an address of a space hits (R9). -/
def State.hit (s : State) (space : Space) (address : Nat) : Option WindowNumber :=
  allWindows.find? fun w => s.windows[w].holds space address

/-- The last byte of an ask, computed without wrapping (R9). -/
def Ask.last (a : Ask) : Nat := a.address + a.count - 1

/-- Some byte of the ask lies in an OPEN or CLOSING window of its space (R17, check 3). -/
def State.touchesWindow (s : State) (a : Ask) : Bool :=
  allWindows.any fun w =>
    s.windows[w].visible && decide (s.windows[w].space = a.space)
      && decide (s.windows[w].base ≤ a.last) && decide (a.address ≤ s.windows[w].limit)

/-- The segment state check (R14): the code that refuses an ask, or `none` where it proceeds. -/
def Engine.refuses (e : Engine) : Option FaultCode :=
  match e.state with
  | .online => none
  | .resetting =>
    match e.returnState with
    | .online => none
    | .offline => some .segmentOffline
  | .offline => some .segmentOffline
  | .faulted => some .segmentFaulted

/-- An ask that decode hands off, with what decode fixes into the item (R16, R18). -/
structure HandOff where
  ask : Ask
  /-- A posted item, or else a pending entry. -/
  posted : Bool
  route : Route
  segment : SegmentNumber
  downstream : Nat
  absentPolicy : AbsentPolicy
  deriving DecidableEq, Repr

/-- How decode ends (R62): an answer of the Window Table that leaves no record, or a hand-off. -/
inductive Decoded where
  | answered (a : Answer)
  | handedOff (x : HandOff)
  deriving DecidableEq, Repr

/-- The answer of a frozen window (R13). -/
def Ask.frozenAnswer (a : Ask) : Answer :=
  match a.kind with
  | .read => .data (onesBytes a.count)
  | .write => .taken

/-- A MEMORY WRITE through a POSTED window becomes a posted item, every other ask a pending entry (R16). -/
def Ask.isPosted (a : Ask) (policy : WritePolicy) : Bool :=
  decide (a.space = .memory ∧ a.kind = .write ∧ policy = .posted)

/-- The checks of R10 to R14 against the hit window, in order, and the translation of R15 and R16. -/
def State.decodeHit (s : State) (a : Ask) (n : WindowNumber) : Decoded :=
  let w := s.windows[n]
  if w.limit < a.last then .answered (.fault .straddle)
  else if w.state = .closing then .answered (.fault .windowClosing)
  else if w.owners ≠ [] ∧ a.requester ∉ w.owners then .answered (.fault .notPermitted)
  else if w.frozen then .answered a.frozenAnswer
  else
    match s.engines[w.segment].refuses with
    | some code => .answered (.fault code)
    | none =>
      .handedOff
        { ask := a, posted := a.isPosted w.writePolicy, route := .window n w.generation, segment := w.segment,
          downstream := a.address - w.base + w.segmentBase, absentPolicy := w.absentPolicy }

/-- The checks of R17 for an ask that misses, in order, and the hand-off of R18. -/
def State.decodeMiss (s : State) (a : Ask) : Decoded :=
  match s.settings.defaultRoute a.space with
  | none => .answered (.fault .unmapped)
  | some n =>
    if a.space.segmentMaximum < a.last then .answered (.fault .unmapped)
    else if s.touchesWindow a then .answered (.fault .straddle)
    else
      match s.engines[n].refuses with
      | some code => .answered (.fault code)
      | none =>
        .handedOff
          { ask := a, posted := a.isPosted .posted, route := .defaultRoute, segment := n, downstream := a.address,
            absentPolicy := s.settings.defaultAbsentPolicy }

/-- Decode of an ask that matches no entry (R9, R62). -/
def State.decode (s : State) (a : Ask) : Decoded :=
  match s.hit a.space a.address with
  | some n => s.decodeHit a n
  | none => s.decodeMiss a

/-! ### Hand-off -/

/-- The posted item of a hand-off (R96). -/
def HandOff.item (x : HandOff) : PostedItem :=
  { route := x.route, downstream := x.downstream, count := x.ask.count, data := x.ask.data.getD [],
    absentPolicy := x.absentPolicy }

/-- The pending entry of a hand-off (R74). -/
def HandOff.entry (x : HandOff) : Entry :=
  { state := .queued, requester := x.ask.requester, kind := x.ask.kind, space := x.ask.space, address := x.ask.address,
    count := x.ask.count, writeData := x.ask.data, route := x.route, segment := x.segment, downstream := x.downstream,
    absentPolicy := x.absentPolicy, orphaned := false, outcome := none, readData := none, discard := none }

/-- The quota count of a requester: its occupied entries that are not orphaned (R73). -/
def State.quotaCount (s : State) (r : Requester) : Nat :=
  allSlots.countP fun slot => s.entries[slot].occupied && !s.entries[slot].orphaned && decide (s.entries[slot].requester = r)

/-- The lowest FREE slot (R74). -/
def State.freeSlot (s : State) : Option Slot := allSlots.find? fun slot => !s.entries[slot].occupied

/-- Acceptance as a posted item (R97): TAKEN, or AGAIN BUSY where the posted count is 8. -/
def State.acceptPosted (s : State) (x : HandOff) : State × Answer :=
  if s.engines[x.segment].postedCount < Config.postedCapacity then
    ((s.enqueue x.segment (.posted x.item)).raiseRoute x.route, .taken)
  else (s, .again .busy)

/-- Acceptance as a pending entry (R72, R74): AGAIN PENDING, or AGAIN BUSY for want of a slot or of quota. -/
def State.acceptPending (s : State) (x : HandOff) : State × Answer :=
  match s.freeSlot with
  | none => (s, .again .busy)
  | some slot =>
    if s.quotaCount x.ask.requester < s.settings.pendingQuota then
      (((s.setEntry slot x.entry).enqueue x.segment (.reference slot)).raiseRoute x.route, .again .pending)
    else (s, .again .busy)

/-- The hand-off of step 7 of the classification (R62). -/
def State.accept (s : State) (x : HandOff) : State × Answer :=
  if x.posted then s.acceptPosted x else s.acceptPending x

/-- A new ask: decoded, and handed off where decode passes it (R62, R78). -/
def State.newAsk (s : State) (a : Ask) : State × Answer :=
  match s.decode a with
  | .answered answer => (s, answer)
  | .handedOff x => s.accept x

/-- A well-formed READ or WRITE ask: matched first, then decoded (R61, R62). -/
def State.access (s : State) (a : Ask) : State × Answer :=
  match s.matching a with
  | some slot => s.collect slot
  | none => s.newAsk a

/-- A READ or WRITE ask at the port: malformed where its body does not fit R172, else taken by the blocks. -/
def accessAtPort (kind : AccessKind) (h : Header) (body : List Byte) (s : State) : State :=
  atPort h body.length
    (fun r s =>
      match parseAsk kind r body with
      | some a => s.access a
      | none => (s, .fault .malformed)) s

/-! ### The rows -/

/-- READ (R61). -/
def execRead (h : Header) (body : List Byte) (s : State) : Host.Outcome State Fault Refusal :=
  .next (accessAtPort .read h body s)

/-- WRITE (R62). -/
def execWrite (h : Header) (body : List Byte) (s : State) : Host.Outcome State Fault Refusal :=
  .next (accessAtPort .write h body s)

end Sys2Proof.Machine
end

