-- ==== Sys2Proof/Machine/WindowCommands.lean ====
section
/-! DEFINITION. The window commands OPEN, AMEND, RENEW, FREEZE, CLOSE, QUERY and LOOKUP, the abandonment, and the expiry of a
lease (R24–R47). -/

namespace Sys2Proof.Machine

/-! ### Validation -/

/-- The conditions of R26 on a record (and of R3 on every OPEN or CLOSING window). A MEMORY limit is a 4-byte field, so it is
at most FFFF_FFFFh. -/
def Window.mappingOk (w : Window) : Bool :=
  decide (w.base % w.space.granule = 0) && decide ((w.limit + 1) % w.space.granule = 0) && decide (w.base ≤ w.limit)
    && decide (w.segmentBase % w.space.granule = 0)
    && decide (w.segmentBase + (w.limit - w.base) ≤ w.space.segmentMaximum)
    && decide (w.space = .io → w.limit ≤ 0xFFFF ∧ w.writePolicy = .delayed)
    && decide w.owners.Nodup

/-- Two windows of one space share a byte (R27). -/
def Window.overlaps (v w : Window) : Bool :=
  decide (v.space = w.space) && decide (v.base ≤ w.limit) && decide (w.base ≤ v.limit)

/-- The record shares a byte with an OPEN or CLOSING window of its space other than the window `n` (R27, R30). -/
def State.blocked (s : State) (n : WindowNumber) (w : Window) : Bool :=
  allWindows.any fun m => decide (m ≠ n) && s.windows[m].visible && s.windows[m].overlaps w

/-! ### OPEN -/

/-- The lease of a lease operand: 0 means none (R28, R32). -/
def leaseOf (n : Nat) : Option Timer := if n = 0 then none else some (Timer.start Config.leaseUnit n)

/-- The record that an OPEN installs over the record it chooses (R28). -/
def OpenOperands.record (o : OpenOperands) (old : Window) : Window :=
  { state := .opened, generation := old.generation + 1, space := o.space, base := o.base, limit := o.limit,
    segment := o.segment, segmentBase := o.segmentBase, writePolicy := o.writePolicy, absentPolicy := o.absentPolicy,
    owners := o.owners, lease := leaseOf o.lease, frozen := false, retireReason := old.retireReason, inFlight := 0 }

/-- The record OPEN chooses (R25): the named one where it is FREE, or for ANY the lowest-numbered FREE one. -/
def State.chooseRecord (s : State) : Option WindowNumber → Except FaultCode WindowNumber
  | some w => if s.windows[w].visible then .error .inUse else .ok w
  | none =>
    match allWindows.find? fun w => !s.windows[w].visible with
    | some w => .ok w
    | none => .error .noFreeWindow

/-- The result block of OPEN, AMEND and RENEW (R176). -/
def windowResult (w : WindowNumber) (r : Window) : List Byte := [BitVec.ofNat 8 w.val, r.generation]

/-- OPEN (R25–R28): checks 1 and 2 of the encodings, 2 of the validation, 3 and 4. -/
def openCommand (block : List Byte) : Command := fun s =>
  match parseOpen block with
  | .error code => .error code
  | .ok o =>
    if (o.record Window.cold).mappingOk then
      match s.chooseRecord o.window with
      | .error code => .error code
      | .ok w =>
        let r := o.record s.windows[w]
        if s.blocked w r then .error .overlap else .ok (s.setWindow w r, windowResult w r)
    else .error .badOperand

/-! ### AMEND, RENEW, FREEZE -/

/-- The checks that AMEND, RENEW and FREEZE share (R30, R32, R36): NOT-OPEN, then FROZEN. -/
def Window.changeRefused (w : Window) : Option FaultCode :=
  if w.state ≠ .opened then some .notOpen else if w.frozen then some .frozen else none

/-- The merged record of an AMEND (R29). -/
def AmendOperands.merged (o : AmendOperands) (w : Window) : Window :=
  { w with
    base := o.base.getD w.base
    limit := o.limit.getD w.limit
    segment := o.segment.getD w.segment
    segmentBase := o.segmentBase.getD w.segmentBase
    writePolicy := o.writePolicy.getD w.writePolicy
    absentPolicy := o.absentPolicy.getD w.absentPolicy
    owners := o.owners.getD w.owners }

/-- AMEND (R29–R31). -/
def amendCommand (block : List Byte) : Command := fun s =>
  match parseAmend block with
  | .error code => .error code
  | .ok o =>
    match s.windows[o.window].changeRefused with
    | some code => .error code
    | none =>
      let r := o.merged s.windows[o.window]
      if r.mappingOk then
        if s.blocked o.window r then .error .overlap else .ok (s.setWindow o.window r, windowResult o.window r)
      else .error .badOperand

/-- RENEW (R32). -/
def renewCommand (block : List Byte) : Command := fun s =>
  match parseRenew block with
  | .error code => .error code
  | .ok (w, lease) =>
    match s.windows[w].changeRefused with
    | some code => .error code
    | none => .ok (s.setWindow w { s.windows[w] with lease := leaseOf lease }, windowResult w s.windows[w])

/-- FREEZE (R36). -/
def freezeCommand (block : List Byte) : Command := fun s =>
  match parseWindow block with
  | .error code => .error code
  | .ok w =>
    match s.windows[w].changeRefused with
    | some code => .error code
    | none =>
      .ok (s.setWindow w { s.windows[w] with frozen := true, lease := none },
        windowResult w s.windows[w] ++ fieldOf 1 s.windows[w].inFlight)

/-! ### CLOSE and abandonment -/

/-- The window enters CLOSING with a reason; its lease goes (R34, R38). -/
def Window.closed (w : Window) (reason : RetireReason) : Window :=
  { w with state := .closing, retireReason := reason, lease := none }

/-- The route of the items accepted through a window at its present generation. -/
def State.routeOf (s : State) (w : WindowNumber) : Route := .window w s.windows[w].generation

/-- The entry is QUEUED and names the route: an abandonment finishes it (R41). -/
def Entry.abandonedBy (e : Entry) (r : Route) : Bool := decide (e.state = .queued ∧ e.route = r)

/-- A queued item that an abandonment takes from its list: a posted item of the route (R42), or the reference of an entry
that the abandonment finishes (R41). -/
def State.abandons (s : State) (r : Route) : Item → Bool
  | .posted p => decide (p.route = r)
  | .reference slot => s.entries[slot].abandonedBy r

/-- The queued posted items of the route on a segment, in acceptance order (R42). -/
def State.abandonedPosted (s : State) (r : Route) (n : SegmentNumber) : List PostedItem :=
  (postedItems s.engines[n].queue).filter fun p => decide (p.route = r)

/-- WRITE-LOST for posted writes lost together on a segment: the address of the first and their number (R42, R130). -/
def State.raiseLost (s : State) (n : SegmentNumber) (cause : LossCause) (lost : List PostedItem) : State :=
  match lost with
  | [] => s
  | p :: rest => s.raise (.writeLost n p.downstream cause) (rest.length + 1)

/-- The slots whose entries an abandonment finishes (R41). -/
def State.abandonedSlots (s : State) (r : Route) : List Slot :=
  allSlots.filter fun slot => s.entries[slot].abandonedBy r

/-- The posted items an abandonment removes from all lists (R42). -/
def State.abandonedCount (s : State) (r : Route) : Nat :=
  (allSegments.map fun n => (s.abandonedPosted r n).length).sum

/-- The abandonment of R41 and R42 for the items of a route, but for the window's own count: the QUEUED entries become COMPLETE
with ABANDONED, their references and the queued posted items leave, and WRITE-LOST is raised for each segment concerned in
ascending order. -/
def State.abandonItems (s : State) (r : Route) : State :=
  let completed := (s.abandonedSlots r).foldl (fun t slot => t.completeEntry slot .abandoned none) s
  let withdrawn := completed.withdraw (s.abandons r)
  allSegments.foldl (fun t n => t.raiseLost n .abandoned (s.abandonedPosted r n)) withdrawn

/-- The abandonment applied to a window: its items, its retire reason, its count and its retirement at one claim
(R39–R42, R44). -/
def State.abandon (s : State) (w : WindowNumber) : State :=
  let r := s.routeOf w
  ((s.setWindow w (s.windows[w].closed .abandoned)).abandonItems r).lower w (s.abandonedCount r)

/-- The result block of CLOSE: the count and the state after the claim (R38, R176). -/
def closeResult (w : Window) : List Byte := fieldOf 1 w.inFlight ++ [w.state.code]

/-- CLOSE, with or without ABANDON (R38–R40). -/
def closeCommand (block : List Byte) : Command := fun s =>
  match parseClose block with
  | .error code => .error code
  | .ok (w, withAbandon) =>
    if s.windows[w].state = .free then .error .notOpen
    else if s.windows[w].frozen then .error .frozen
    else
      let t :=
        if withAbandon then s.abandon w
        else if s.windows[w].state = .opened then (s.setWindow w (s.windows[w].closed .closed)).settle w
        else s
      .ok (t, closeResult t.windows[w])

/-! ### QUERY and LOOKUP -/

/-- The owner places of a result: four bytes, zero beyond the list (R175). -/
def ownerPlaces (owners : List Requester) : List Byte :=
  ((owners.map fun r : Requester => BitVec.ofNat 8 r.val) ++ List.replicate 4 0).take 4

/-- The result block of QUERY (R46, R176). -/
def queryResult (w : Window) : List Byte :=
  if w.state = .free then [w.state.code, w.generation]
  else
    [w.state.code, w.generation, w.space.code, BitVec.ofNat 8 w.segment.val, w.writePolicy.code, w.absentPolicy.code,
      w.flags, if w.state = .closing then w.retireReason.code else 0, BitVec.ofNat 8 w.owners.length]
    ++ ownerPlaces w.owners ++ fieldOf 1 w.inFlight ++ fieldOf 2 (unitsLeft w.lease)
    ++ fieldOf 4 w.base ++ fieldOf 4 w.limit ++ fieldOf 4 w.segmentBase

/-- QUERY (R46). -/
def queryCommand (block : List Byte) : Command := fun s =>
  match parseWindow block with
  | .error code => .error code
  | .ok w => .ok (s, queryResult s.windows[w])

/-- The result block of LOOKUP (R47, R176). -/
def State.lookupResult (s : State) (space : Space) (address : Nat) : List Byte :=
  match s.hit space address with
  | some n =>
    [0x01, BitVec.ofNat 8 n.val, s.windows[n].state.code, s.windows[n].generation, flagBit 0 s.windows[n].frozen]
  | none =>
    match s.settings.defaultRoute space with
    | some n => if address ≤ space.segmentMaximum then [0x02, BitVec.ofNat 8 n.val, 0, 0, 0] else [0, 0, 0, 0, 0]
    | none => [0, 0, 0, 0, 0]

/-- LOOKUP (R47). -/
def lookupCommand (block : List Byte) : Command := fun s =>
  match parseLookup block with
  | .error code => .error code
  | .ok (space, address) => .ok (s, s.lookupResult space address)

/-! ### The rows -/

/-- OPEN (R28). -/
def execOpen (h : Header) (operands : List Byte) (s : State) : Host.Outcome State Fault Refusal :=
  .next (manage h operands (openCommand operands) s)

/-- AMEND (R31). -/
def execAmend (h : Header) (operands : List Byte) (s : State) : Host.Outcome State Fault Refusal :=
  .next (manage h operands (amendCommand operands) s)

/-- RENEW (R32). -/
def execRenew (h : Header) (operands : List Byte) (s : State) : Host.Outcome State Fault Refusal :=
  .next (manage h operands (renewCommand operands) s)

/-- FREEZE (R36). -/
def execFreeze (h : Header) (operands : List Byte) (s : State) : Host.Outcome State Fault Refusal :=
  .next (manage h operands (freezeCommand operands) s)

/-- CLOSE (R38, R39). -/
def execClose (h : Header) (operands : List Byte) (s : State) : Host.Outcome State Fault Refusal :=
  .next (manage h operands (closeCommand operands) s)

/-- CLOSE with ABANDON (R39, R40): the same block, whose ABANDON bit is set. -/
def execCloseWithAbandon (h : Header) (operands : List Byte) (s : State) : Host.Outcome State Fault Refusal :=
  .next (manage h operands (closeCommand operands) s)

/-- QUERY (R46). -/
def execQuery (h : Header) (operands : List Byte) (s : State) : Host.Outcome State Fault Refusal :=
  .next (manage h operands (queryCommand operands) s)

/-- LOOKUP (R47). -/
def execLookup (h : Header) (operands : List Byte) (s : State) : Host.Outcome State Fault Refusal :=
  .next (manage h operands (lookupCommand operands) s)

/-- LEASE_EXPIRY (R1, R34): a lease timer that may expire does, and the window is closed as by CLOSE without ABANDON; before that
there is no expiry (log 4). -/
def execLeaseExpiry (w : WindowNumber) (s : State) : Host.Outcome State Fault Refusal :=
  if mayExpire s.windows[w].lease then .next ((s.setWindow w (s.windows[w].closed .leaseExpired)).settle w) else .next s

end Sys2Proof.Machine
end

