-- ==== Sys2Proof/Machine/PendingCommands.lean ====
section
/-! DEFINITION. PENDING-STATUS, CANCEL-REQUESTER and the expiry of a discard timer (R85, R87–R92). -/

namespace Sys2Proof.Machine

/-! ### PENDING-STATUS -/

/-- The byte of a slot in the SUMMARY: state in bits 1:0, orphaned flag in bit 2, requester in bits 7:3 (R91, R177). -/
def Entry.summaryByte (e : Entry) : Byte :=
  if e.occupied then
    BitVec.ofNat 8 (e.state.code.toNat + (if e.state = .issued ∧ e.orphaned then 4 else 0) + 8 * e.requester.val)
  else 0

/-- The result block of PENDING-STATUS with SUMMARY (R91, R177). -/
def State.summaryResult (s : State) : List Byte :=
  (allSlots.map fun slot => s.entries[slot].summaryByte)
    ++ fieldOf 1 (allSlots.countP fun slot => !s.entries[slot].occupied)

/-- The route window byte: FFh for DEFAULT (R177). -/
def Route.windowByte : Route → Byte
  | .window w _ => BitVec.ofNat 8 w.val
  | .defaultRoute => 0xFF

/-- The generation byte of a route: zero for DEFAULT (R177). -/
def Route.generationByte : Route → Byte
  | .window _ g => g
  | .defaultRoute => 0

/-- The outcome byte: zero unless the entry is COMPLETE (R177). -/
def Entry.outcomeByte (e : Entry) : Byte :=
  match e.state, e.outcome with
  | .complete, some o => o.code
  | _, _ => 0

/-- The discard time byte: zero unless the entry is COMPLETE (R177). -/
def Entry.discardByte (e : Entry) : Byte :=
  if e.state = .complete then BitVec.ofNat 8 (unitsLeft e.discard) else 0

/-- The result block of PENDING-STATUS for one slot (R92, R177). -/
def Entry.statusResult (e : Entry) : List Byte :=
  if e.occupied then
    [e.state.code, BitVec.ofNat 8 e.requester.val, e.kind.code, e.space.code, BitVec.ofNat 8 e.count,
      e.route.windowByte, e.route.generationByte, BitVec.ofNat 8 e.segment.val, e.absentPolicy.code, e.flags,
      e.outcomeByte, e.discardByte]
    ++ fieldOf 4 e.address ++ fieldOf 4 e.downstream
  else [e.state.code]

/-- PENDING-STATUS (R91, R92). -/
def pendingStatusCommand (block : List Byte) : Command := fun s =>
  match parsePendingStatus block with
  | .error code => .error code
  | .ok none => .ok (s, s.summaryResult)
  | .ok (some slot) => .ok (s, s.entries[slot].statusResult)

/-! ### CANCEL-REQUESTER -/

/-- The entry belongs to the requester and CANCEL-REQUESTER frees it: it is QUEUED or COMPLETE (R88). -/
def Entry.freedByCancel (e : Entry) (r : Requester) : Bool :=
  decide (e.requester = r ∧ (e.state = .queued ∨ e.state = .complete))

/-- The entry after CANCEL-REQUESTER r (R88): freed, newly orphaned, or left as it is. -/
def Entry.cancelled (e : Entry) (r : Requester) : Entry :=
  if e.freedByCancel r then e.freed
  else if e.requester = r ∧ e.state = .issued then { e with orphaned := true }
  else e

/-- A queued reference that CANCEL-REQUESTER withdraws: that of a QUEUED entry of the requester (R88, R107). -/
def State.cancels (s : State) (r : Requester) : Item → Bool
  | .posted _ => false
  | .reference slot => decide (s.entries[slot].requester = r ∧ s.entries[slot].state = .queued)

/-- The slots of the requester in one state. -/
def State.slotsOf (s : State) (r : Requester) (p : Entry → Bool) : List Slot :=
  allSlots.filter fun slot => decide (s.entries[slot].requester = r) && p s.entries[slot]

/-- The entries after CANCEL-REQUESTER r (R88). -/
def State.cancelEntries (s : State) (r : Requester) : State :=
  { s with entries := everyRecord s.entries fun e => e.cancelled r }

/-- The routes of the entries that CANCEL-REQUESTER r frees (R88). -/
def State.cancelledRoutes (s : State) (r : Requester) : List Route :=
  (allSlots.filter fun slot : Slot => s.entries[slot].freedByCancel r).map fun slot : Slot => s.entries[slot].route

/-- The effect of CANCEL-REQUESTER r: its entries, their references, and the counts of their windows, which may retire in
ascending order (R88). -/
def State.cancel (s : State) (r : Requester) : State :=
  ((s.cancelEntries r).withdraw (s.cancels r)).lowerRoutes (s.cancelledRoutes r)

/-- The result block of CANCEL-REQUESTER: QUEUED freed, COMPLETE freed, newly orphaned (R88, R177). -/
def State.cancelResult (s : State) (r : Requester) : List Byte :=
  fieldOf 1 (s.slotsOf r fun e => decide (e.state = .queued)).length
    ++ fieldOf 1 (s.slotsOf r fun e => decide (e.state = .complete)).length
    ++ fieldOf 1 (s.slotsOf r fun e => decide (e.state = .issued) && !e.orphaned).length

/-- CANCEL-REQUESTER (R87, R88). -/
def cancelRequesterCommand (block : List Byte) : Command := fun s =>
  match parseRequester block with
  | .error code => .error code
  | .ok r => .ok (s.cancel r, s.cancelResult r)

/-! ### The rows -/

/-- PENDING_STATUS (R91). -/
def execPendingStatus (h : Header) (operands : List Byte) (s : State) : Host.Outcome State Fault Refusal :=
  .next (manage h operands (pendingStatusCommand operands) s)

/-- CANCEL_REQUESTER (R88). -/
def execCancelRequester (h : Header) (operands : List Byte) (s : State) : Host.Outcome State Fault Refusal :=
  .next (manage h operands (cancelRequesterCommand operands) s)

/-- DISCARD_EXPIRY (R1, R85): a discard timer that may expire does. The entry is freed, COMPLETION-DISCARDED is raised, and after it
the window's count falls, so that a WINDOW-RETIRED comes second; before that there is no expiry (log 4). -/
def execDiscardExpiry (slot : Slot) (s : State) : Host.Outcome State Fault Refusal :=
  let e := s.entries[slot]
  if mayExpire e.discard then
    .next (((s.freeEntry slot).raise (.completionDiscarded e.requester slot e.kind e.address) 1).lowerRoute e.route)
  else .next s

end Sys2Proof.Machine
end

