-- ==== Sys2Proof/Machine/SegmentEngine.lean ====
section
/-! DEFINITION. The Segment Engines: the division of an item into cycles (R113–R117), the end of a cycle and of an item
(R118–R124), the segment commands (R126–R130, R133) and the end of a reset pulse (R132). -/

namespace Sys2Proof.Machine

/-! ### Division into cycles -/

/-- An item as the engine performs it: the fields fixed at acceptance (R113). `data` holds the write data. -/
structure Job where
  space : Space
  kind : AccessKind
  downstream : Nat
  count : Nat
  data : List Byte
  deriving DecidableEq, Repr

/-- The job of an item: of the posted item, or of the entry the reference names (R113). -/
def State.job (s : State) : Item → Job
  | .posted p => { space := .memory, kind := .write, downstream := p.downstream, count := p.count, data := p.data }
  | .reference slot =>
    let e := s.entries[slot]
    { space := e.space, kind := e.kind, downstream := e.downstream, count := e.count, data := e.writeData.getD [] }

/-- Byte cycles at width 8: one for each byte, in ascending order, all on the lower half (R115). -/
def byteCycles (j : Job) : (count address : Nat) → (data : List Byte) → List Cycle
  | 0, _, _ => []
  | n + 1, a, d => ⟨j.space, j.kind, a, .low, d.take 1⟩ :: byteCycles j n (a + 1) (d.drop 1)

/-- Word cycles from an even address, with a byte cycle for a byte left over (R116, 2 and 3). -/
def wordCycles (j : Job) : (count address : Nat) → (data : List Byte) → List Cycle
  | 0, _, _ => []
  | 1, a, d => [⟨j.space, j.kind, a, .low, d.take 1⟩]
  | n + 2, a, d => ⟨j.space, j.kind, a, .both, d.take 2⟩ :: wordCycles j n (a + 2) (d.drop 2)

/-- The division of an item by the segment's width (R115, R116). -/
def Job.divide (j : Job) : Width → List Cycle
  | .eight => byteCycles j j.count j.downstream j.data
  | .sixteen =>
    if j.downstream % 2 = 1 ∧ 0 < j.count then
      ⟨j.space, j.kind, j.downstream, .high, j.data.take 1⟩ :: wordCycles j (j.count - 1) (j.downstream + 1) (j.data.drop 1)
    else wordCycles j j.count j.downstream j.data

/-- A segment's engine, written as `e`, starts the first of a list of cycles, its timer at SEGn-CYCLE-TIMEOUT units of 1 µs; the rest
remain (R117). The cycle takes a number that no cycle had before (log 17). -/
def State.startCycle (s : State) (n : SegmentNumber) (e : Engine) : List Cycle → State
  | [] => s.setEngine n { e with current := none, remaining := [] }
  | c :: cs =>
    { s.setEngine n
        { e with
          current := some ⟨c, Timer.start Config.cycleUnit s.settings.segments[n].cycleTimeout, s.cyclesStarted⟩
          remaining := cs } with
      cyclesStarted := s.cyclesStarted + 1 }

/-- The current cycle of a segment, where it is the one that a target's signal answers (R118, log 17). -/
def State.answeredCycle (s : State) (answered : CycleName) : Option RunningCycle :=
  s.engines[answered.segment].current.filter fun c => decide (c.number = answered.number)

/-! ### Taking the head -/

/-- A reference's entry becomes ISSUED; a posted item has no entry (R79, R100). -/
def State.issue (s : State) : Item → State
  | .posted _ => s
  | .reference slot => s.setEntry slot { s.entries[slot] with state := .issued }

/-- The engine takes the head of its list (R113), where it is ONLINE and IDLE and the list is not empty. -/
def State.takeHead (s : State) (n : SegmentNumber) : State :=
  let e := s.engines[n]
  if e.state = .online ∧ e.inFlight = none then
    match e.queue with
    | [] => s
    | i :: rest =>
      let cycles := (s.job i).divide s.settings.segments[n].width
      (s.startCycle n { e with queue := rest, inFlight := some i, kept := [] } cycles).issue i
  else s

/-! ### The end of a cycle and of an item -/

/-- The byte or bytes a read cycle takes from its lanes, the lower address first (R116, R179). -/
def Lanes.bytes (l : Lanes) (data : BitVec 16) : List Byte :=
  match l with
  | .low => [data.extractLsb' 0 8]
  | .high => [data.extractLsb' 8 8]
  | .both => [data.extractLsb' 0 8, data.extractLsb' 8 8]

/-- The bytes an acknowledged cycle keeps: those of its lanes for a read cycle, none for a write cycle (R117). -/
def Cycle.taken (c : Cycle) (data : BitVec 16) : List Byte :=
  match c.kind with
  | .read => c.lanes.bytes data
  | .write => []

/-- How an item ends (R80, R121). -/
inductive ItemResult where
  | ok
  | noResponse
  | targetError
  deriving DecidableEq, Repr

/-- The outcome a result records (R80). -/
def ItemResult.outcome : ItemResult → EntryOutcome
  | .ok => .ok
  | .noResponse => .noResponse
  | .targetError => .targetError

/-- The cause of the WRITE-LOST that the end of a posted item raises, if it raises one (R105). -/
def lossOf : ItemResult → AbsentPolicy → Option LossCause
  | .ok, _ => none
  | .noResponse, .ones => none
  | .noResponse, .fault => some .noResponse
  | .targetError, _ => some .targetError

/-- The read data recorded with a result: the bytes kept, for a READ that ends OK (R80, R122). -/
def Entry.readResult (e : Entry) (result : ItemResult) (kept : List Byte) : Option (List Byte) :=
  if e.kind = .read ∧ result = .ok then some kept else none

/-- An item's result is handed back (R121, step 1): to its entry, which completes or, orphaned, is freed (R80, R89); of a posted
item, WRITE-LOST is raised where R105 requires it, and then its window's count falls (R104). -/
def State.handBack (s : State) (n : SegmentNumber) (i : Item) (result : ItemResult) (kept : List Byte) : State :=
  match i with
  | .reference slot =>
    let e := s.entries[slot]
    if e.orphaned then s.endEntry slot else s.completeEntry slot result.outcome (e.readResult result kept)
  | .posted p =>
    match lossOf result p.absentPolicy with
    | some cause => (s.raise (.writeLost n p.downstream cause) 1).lowerRoute p.route
    | none => s.lowerRoute p.route

/-- The engine with no item in flight and no cycle: IDLE (R111). -/
def Engine.idle (e : Engine) : Engine := { e with inFlight := none, current := none, remaining := [], kept := [] }

/-- The in-flight item ends: the engine becomes IDLE and the result is handed back (R121, step 1). -/
def State.endItem (s : State) (n : SegmentNumber) (result : ItemResult) : State :=
  let e := s.engines[n]
  match e.inFlight with
  | none => s
  | some i => (s.setEngine n e.idle).handBack n i result e.kept

/-- The consecutive no-response count set (R120). -/
def State.countNoResponses (s : State) (n : SegmentNumber) (count : Nat) : State :=
  s.setEngine n { s.engines[n] with noResponses := count }

/-- The engine enters FAULTED and SEGMENT-FAULTED is raised (R124). -/
def State.faultSegment (s : State) (n : SegmentNumber) (cause : FaultCause) : State :=
  (s.setEngine n { s.engines[n] with state := .faulted, faultCause := cause }).raise (.segmentFaulted n cause) 1

/-- An acknowledged cycle (R119, R120): the next cycle starts at the same claim, or the item ends OK. An acknowledgement of a cycle
that is not current, or not any more, is disregarded (R118, R130, R134, R179). -/
def State.acknowledge (s : State) (answered : CycleName) (data : BitVec 16) : State :=
  let n := answered.segment
  let e := s.engines[n]
  match s.answeredCycle answered with
  | none => s
  | some c =>
    let e' := { e with kept := e.kept ++ c.cycle.taken data, noResponses := 0 }
    match e.remaining with
    | [] => (s.setEngine n e').endItem n .ok
    | cs => s.startCycle n e' cs

/-- A cycle ended NO-RESPONSE (R1, R118, R120, R121), where its timer may expire (log 4). -/
def State.timeOut (s : State) (n : SegmentNumber) : State :=
  if mayExpire (s.engines[n].current.map RunningCycle.timer) then
    let count := s.engines[n].noResponses + 1
    let t := (s.endItem n .noResponse).countNoResponses n count
    if s.settings.segments[n].noResponseLimit ≤ count then t.faultSegment n .noResponseLimit else t
  else s

/-- A cycle ended TARGET-ERROR (R120, R121, R123). An error for a cycle that is not current, or not any more, is disregarded (R118,
R130, R134, R179). -/
def State.errCycle (s : State) (answered : CycleName) : State :=
  let n := answered.segment
  match s.answeredCycle answered with
  | none => s
  | some _ =>
    let t := (s.endItem n .targetError).countNoResponses n 0
    if s.settings.segments[n].haltOnError then t.faultSegment n .targetError else t

/-! ### The segment commands -/

/-- BRING-ONLINE (R126). -/
def bringOnlineCommand (block : List Byte) : Command := fun s =>
  match parseSegment block with
  | .error code => .error code
  | .ok n =>
    if s.engines[n].state = .offline then
      .ok (s.setEngine n { s.engines[n] with state := .online }, [EngineState.online.code])
    else .error .wrongState

/-- The engine leaves for a state with its no-response count and fault cause cleared (R127, R128). -/
def Engine.cleared (e : Engine) (state : EngineState) : Engine :=
  { e with state := state, noResponses := 0, faultCause := .none }

/-- TAKE-OFFLINE (R127). -/
def takeOfflineCommand (block : List Byte) : Command := fun s =>
  match parseSegment block with
  | .error code => .error code
  | .ok n =>
    let e := s.engines[n]
    if e.state = .offline ∨ e.state = .resetting then .error .wrongState
    else if e.busy ∨ e.queue ≠ [] then .error .busy
    else .ok (s.setEngine n (e.cleared .offline), [EngineState.offline.code])

/-- RESUME (R128). -/
def resumeCommand (block : List Byte) : Command := fun s =>
  match parseSegment block with
  | .error code => .error code
  | .ok n =>
    if s.engines[n].state = .faulted then
      .ok (s.setEngine n (s.engines[n].cleared .online), [EngineState.online.code])
    else .error .wrongState

/-! ### Segment reset -/

/-- The engine after a segment reset or a warm reset (R129, R134): RESETTING with a return state, nothing in flight, an empty list
and its pulse timer started at `pulse` units of 1 µs. -/
def Engine.resettingTo (returnState : ReturnState) (pulse : Nat) : Engine :=
  { state := .resetting, returnState := returnState, queue := [], inFlight := none, current := none, remaining := [],
    kept := [], noResponses := 0, faultCause := .none, resetPulse := some (Timer.start Config.pulseUnit pulse) }

/-- The return state a RESET-SEGMENT sets (R129). -/
def Engine.returnAfterReset (e : Engine) : ReturnState :=
  if e.state = .offline then .offline else .online

/-- A slot a reset ends (R82): an orphaned entry is freed, any other becomes COMPLETE with SEGMENT-RESET. -/
def State.resetEntry (s : State) (slot : Slot) : State :=
  if s.entries[slot].orphaned then s.freeEntry slot else s.completeEntry slot .segmentReset none

/-- The slots of the items an engine holds whose entries are orphaned, or are not (R130). -/
def State.heldSlots (s : State) (n : SegmentNumber) (orphaned : Bool) : List Slot :=
  (referencedSlots s.engines[n].items).filter fun slot => s.entries[slot].orphaned == orphaned

/-- The routes of the items that a reset ends for good: the posted items and an orphan (R130). -/
def State.endedRoutes (s : State) (n : SegmentNumber) : List Route :=
  (postedItems s.engines[n].items).map PostedItem.route
    ++ (s.heldSlots n true).map fun slot => s.entries[slot].route

/-- The claim of RESET-SEGMENT (R129, R130): every item the engine holds ends, WRITE-LOST is raised for the posted items
lost and dropped, the counts of their windows fall, and windows retire in ascending order. -/
def State.resetSegment (s : State) (n : SegmentNumber) : State :=
  let e := s.engines[n]
  let entriesDone := (referencedSlots e.items).foldl State.resetEntry s
  let engineDone :=
    entriesDone.setEngine n (Engine.resettingTo e.returnAfterReset s.settings.segments[n].resetPulse)
  (engineDone.raiseLost n .segmentReset (postedItems e.items)).lowerRoutes (s.endedRoutes n)

/-- The result block of RESET-SEGMENT (R130, R177). -/
def State.resetResult (s : State) (n : SegmentNumber) : List Byte :=
  [EngineState.resetting.code, s.engines[n].returnAfterReset.code]
    ++ fieldOf 1 (s.heldSlots n false).length ++ fieldOf 1 (postedItems s.engines[n].items).length

/-- RESET-SEGMENT (R129, R130). -/
def resetSegmentCommand (block : List Byte) : Command := fun s =>
  match parseSegment block with
  | .error code => .error code
  | .ok n =>
    if s.engines[n].state = .resetting then .error .busy else .ok (s.resetSegment n, s.resetResult n)

/-! ### SEGMENT-STATUS -/

/-- The result block of SEGMENT-STATUS (R133, R177). -/
def Engine.statusResult (e : Engine) : List Byte :=
  [e.state.code, e.returnStateByte, if e.busy then 1 else 0]
    ++ fieldOf 1 e.postedCount ++ fieldOf 1 e.queueLength ++ fieldOf 1 e.noResponses ++ [e.faultCause.code]

/-- SEGMENT-STATUS (R133). -/
def segmentStatusCommand (block : List Byte) : Command := fun s =>
  match parseSegment block with
  | .error code => .error code
  | .ok n => .ok (s, s.engines[n].statusResult)

/-! ### The end of a reset pulse -/

/-- The engine state of a return state (R132). -/
def ReturnState.engineState : ReturnState → EngineState
  | .online => .online
  | .offline => .offline

/-- The port leaves RESTARTING where no engine is RESETTING any more and WARM_N is released (R50). -/
def State.leaveRestarting (s : State) : State :=
  if s.port = .restarting ∧ s.warmN = false ∧ allSegments.all (fun n => decide (s.engines[n].state ≠ .resetting)) then
    { s with port := .running }
  else s

/-- A reset pulse timer that may expire does (R1, R132), and with the last pulse of a warm reset the port may leave RESTARTING (R50);
before that there is no expiry (log 4). -/
def State.endPulse (s : State) (n : SegmentNumber) : State :=
  if mayExpire s.engines[n].resetPulse then
    (s.setEngine n { s.engines[n] with state := s.engines[n].returnState.engineState, resetPulse := none }).leaveRestarting
  else s

/-! ### The rows -/

/-- BRING_ONLINE (R126). -/
def execBringOnline (h : Header) (operands : List Byte) (s : State) : Host.Outcome State Fault Refusal :=
  .next (manage h operands (bringOnlineCommand operands) s)

/-- TAKE_OFFLINE (R127). -/
def execTakeOffline (h : Header) (operands : List Byte) (s : State) : Host.Outcome State Fault Refusal :=
  .next (manage h operands (takeOfflineCommand operands) s)

/-- RESUME (R128). -/
def execResume (h : Header) (operands : List Byte) (s : State) : Host.Outcome State Fault Refusal :=
  .next (manage h operands (resumeCommand operands) s)

/-- RESET_SEGMENT (R129). -/
def execResetSegment (h : Header) (operands : List Byte) (s : State) : Host.Outcome State Fault Refusal :=
  .next (manage h operands (resetSegmentCommand operands) s)

/-- SEGMENT_STATUS (R133). -/
def execSegmentStatus (h : Header) (operands : List Byte) (s : State) : Host.Outcome State Fault Refusal :=
  .next (manage h operands (segmentStatusCommand operands) s)

/-- CYCLE_TIMEOUT (R118): the timer of the current cycle expires. -/
def execCycleTimeout (n : SegmentNumber) (s : State) : Host.Outcome State Fault Refusal :=
  .next (s.timeOut n)

/-- CYCLE_ACKNOWLEDGED (R119): disregarded where the cycle it answers is not the current one (R118, R179; log 17). -/
def execCycleAcknowledged (answered : CycleName) (data : BitVec 16) (s : State) : Host.Outcome State Fault Refusal :=
  .next (s.acknowledge answered data)

/-- TARGET_ERROR (R121): disregarded where the cycle it answers is not the current one (R118, R179; log 17). -/
def execTargetError (answered : CycleName) (s : State) : Host.Outcome State Fault Refusal :=
  .next (s.errCycle answered)

/-- RESET_PULSE_EXPIRY (R132). -/
def execResetPulseExpiry (n : SegmentNumber) (s : State) : Host.Outcome State Fault Refusal :=
  .next (s.endPulse n)

/-- TAKE_HEAD (R113). -/
def execTakeHead (n : SegmentNumber) (s : State) : Host.Outcome State Fault Refusal :=
  .next (s.takeHead n)

end Sys2Proof.Machine
end

