-- ==== Sys2Proof/Machine/Notices.lean ====
section
/-! DEFINITION. The Notice Unit: the send of the head (R143), its acknowledgement (R144), the expiry of the ack timer (R145), the
notice commands (R148–R151) and the effect of a write of NOTICE-TARGET (R150). -/

namespace Sys2Proof.Machine

/-! ### Sending the head -/

/-- The sequence of a send: the head's own, or next sequence for a head that has none (R143, step 1). -/
def NoticeUnit.sendSequence (u : NoticeUnit) (head : Notice) : Byte := head.sequence.getD u.nextSequence

/-- The unit after the send of its head (R143, steps 1 to 5). -/
def NoticeUnit.sent (u : NoticeUnit) (head : Notice) (rest : List Notice) (timeout : Nat) : NoticeUnit :=
  { queue := { head with sequence := some (u.sendSequence head) } :: rest
    delivery := .awaitAck
    nextSequence := if head.sequence.isSome then u.nextSequence else u.nextSequence + 1
    attempts := u.attempts + 1
    ackTimer := some (Timer.start Config.ackUnit timeout)
    overrun := u.overrun
    overrunCarried := u.overrun }

/-- The NOTICE that a send hands to the port (R143, step 6). -/
def NoticeUnit.messageOf (u : NoticeUnit) (target : Requester) (head : Notice) : NoticeMessage :=
  { addressee := target, sequence := u.sendSequence head, news := head.news, repeats := head.repeats, overrun := u.overrun }

/-- The send of the head (R143), where a target is named, delivery is IDLE and the queue is not empty. -/
def State.sendHead (s : State) : State :=
  match s.settings.noticeTarget, s.notices.delivery, s.notices.queue with
  | some target, .idle, head :: rest =>
    { s with
      notices := s.notices.sent head rest s.settings.noticeAckTimeout
      handed := s.handed ++ [s.notices.messageOf target head] }
  | _, _, _ => s

/-! ### Acknowledgement -/

/-- The acknowledgement names the head in flight (R144): delivery is AWAIT-ACK and the sequence equals the head's. -/
def NoticeUnit.accepts (u : NoticeUnit) (sequence : Byte) : Bool :=
  decide (u.delivery = .awaitAck) && (u.queue.head?.any fun x => decide (x.sequence = some sequence))

/-- The unit after an accepted acknowledgement (R144, R140). -/
def NoticeUnit.acknowledged (u : NoticeUnit) : NoticeUnit :=
  { u with
    queue := u.queue.drop 1
    ackTimer := none
    attempts := 0
    overrun := if u.overrunCarried then false else u.overrun
    delivery := .idle }

/-- A NOTICE-ACK at the Notice Unit (R144). -/
def State.acknowledgeNotice (s : State) (r : Requester) (sequence : Byte) : State × Answer :=
  if s.settings.noticeTarget = some r then
    if s.notices.accepts sequence then (s.setNotices s.notices.acknowledged, .taken) else (s, .taken)
  else (s, .fault .notPermitted)

/-! ### Leaving flight -/

/-- The head leaves flight without being removed (R141): the ack timer stops and a later notice is merged into it. -/
def NoticeUnit.landed (u : NoticeUnit) (delivery : Delivery) : NoticeUnit :=
  { u with queue := mergeHead u.queue, ackTimer := none, delivery := delivery }

/-- The expiry of the ack timer (R145). -/
def NoticeUnit.expired (u : NoticeUnit) : NoticeUnit :=
  u.landed (if u.attempts < Config.attemptLimit then .idle else .stalled)

/-- The unit after a write of NOTICE-TARGET (R150): the head leaves flight where it was in flight, and delivery is IDLE for a
requester and DISABLED for NONE. -/
def NoticeUnit.retargeted (u : NoticeUnit) (target : Option Requester) : NoticeUnit :=
  let delivery : Delivery := if target.isSome then .idle else .disabled
  match u.delivery with
  | .awaitAck => { u.landed delivery with attempts := 0 }
  | .disabled => { u with delivery := delivery, attempts := if target.isSome then 0 else u.attempts }
  | .idle => { u with delivery := delivery, attempts := 0 }
  | .stalled => { u with delivery := delivery, attempts := 0 }

/-! ### Notice commands -/

/-- RESUME-NOTICES (R148, R149). -/
def resumeNoticesCommand (block : List Byte) : Command := fun s =>
  if block = [] then
    if s.notices.delivery = .stalled then
      .ok (s.setNotices { s.notices with attempts := 0, delivery := .idle }, [Delivery.idle.code])
    else .error .wrongState
  else .error .badOperand

/-- The head's sequence byte of NOTICE-STATUS: zero where the head has none (R151, R177). -/
def NoticeUnit.headSequenceByte (u : NoticeUnit) : Byte := ((u.queue.head?.bind (·.sequence)).getD 0)

/-- The result block of NOTICE-STATUS (R151, R177). -/
def NoticeUnit.statusResult (u : NoticeUnit) : List Byte :=
  [u.delivery.code] ++ fieldOf 1 u.queue.length ++ [u.headSequenceByte, u.flags] ++ fieldOf 1 u.attempts

/-- NOTICE-STATUS (R148, R151). -/
def noticeStatusCommand (block : List Byte) : Command := fun s =>
  if block = [] then .ok (s, s.notices.statusResult) else .error .badOperand

/-! ### The rows -/

/-- NOTICE_ACK (R144): malformed where its body is not one byte (R55, R172). -/
def execNoticeAck (h : Header) (body : List Byte) (s : State) : Host.Outcome State Fault Refusal :=
  .next
    (atPort h body.length
      (fun r s =>
        match body with
        | [sequence] => s.acknowledgeNotice r sequence
        | _ => (s, .fault .malformed)) s)

/-- RESUME_NOTICES (R149). -/
def execResumeNotices (h : Header) (operands : List Byte) (s : State) : Host.Outcome State Fault Refusal :=
  .next (manage h operands (resumeNoticesCommand operands) s)

/-- NOTICE_STATUS (R151). -/
def execNoticeStatus (h : Header) (operands : List Byte) (s : State) : Host.Outcome State Fault Refusal :=
  .next (manage h operands (noticeStatusCommand operands) s)

/-- ACK_TIMER_EXPIRY (R1, R145): an ack timer that may expire does; before that there is no expiry (log 4). -/
def execAckTimerExpiry (s : State) : Host.Outcome State Fault Refusal :=
  if mayExpire s.notices.ackTimer then .next (s.setNotices s.notices.expired) else .next s

/-- NOTICE_SEND (R143). -/
def execNoticeSend (s : State) : Host.Outcome State Fault Refusal :=
  .next s.sendHead

end Sys2Proof.Machine
end

