-- ==== Sys2Proof/Machine/Resets.lean ====
section
/-! DEFINITION. The warm reset in every block (R23, R94, R110, R134, R153, R166, R168), the cold reset (R22, R51, R93, R135,
R152, R169), and the pins that give them. -/

namespace Sys2Proof.Machine

/-! ### The warm reset -/

/-- A window record after a warm reset (R2, R23): FREE unless it is frozen; no lease; no item in flight. -/
def Window.warm (w : Window) : Window :=
  { w with state := if w.frozen then w.state else .free, lease := none, inFlight := 0 }

/-- The warm reset at the moment it takes effect (R166). Answers already determined keep their places (R49); a NOTICE not
yet sent is discarded (R68). Every pulse is 20 units, the reset value of SEGn-RESET-PULSE (R134). -/
def State.warmReset (s : State) : State :=
  { s with
    port := .restarting
    handed := []
    windows := everyRecord s.windows Window.warm
    entries := everyRecord s.entries Entry.freed
    engines := everyRecord s.engines fun _ => Engine.resettingTo .offline SegmentSettings.initial.resetPulse
    notices := NoticeUnit.cold
    settings := Settings.initial }

/-! ### The cold reset -/

/-- The fall of PWRGOOD (R51): every block takes its cold reset values, and the unanswered, the unsent answers and the unsent
NOTICE are discarded. The state of WARM_N is the pin's own, and what has left the port has left it (log 7). -/
def State.coldReset (s : State) : State :=
  { s with
    power := .off
    port := .running
    answers := []
    handed := []
    windows := Vector.replicate 48 Window.cold
    entries := Vector.replicate 16 Entry.cold
    engines := Vector.replicate 4 Engine.cold
    notices := NoticeUnit.cold
    settings := Settings.initial }

/-! ### The rows -/

/-- WARM_N_ASSERT (R166): a warm reset, if PWRGOOD is asserted and the cold reset has ended; each assertion gives one (R50, log
5). -/
def execWarmNAssert (s : State) : Host.Outcome State Fault Refusal :=
  if s.power = .on then .next { s.warmReset with warmN := true } else .next { s with warmN := true }

/-- WARM_N_RELEASE (R50): the port returns to RUNNING if every pulse has ended. -/
def execWarmNRelease (s : State) : Host.Outcome State Fault Refusal :=
  .next (State.leaveRestarting { s with warmN := false })

/-- PWRGOOD_FALL (R51). -/
def execPwrgoodFall (s : State) : Host.Outcome State Fault Refusal :=
  .next s.coldReset

/-- PWRGOOD_RISE (R51): the count of 1 ms starts, as 1000 units of 1 µs (log 2). -/
def execPwrgoodRise (s : State) : Host.Outcome State Fault Refusal :=
  match s.power with
  | .off => .next { s with power := .counting (Timer.start Config.powerUnit 1000) }
  | .counting _ => .next s
  | .on => .next s

/-- COLD_RESET_END (R51): with the count of 1 ms run out, the port enters RUNNING, and RESTARTING at that same moment if WARM_N is
asserted (R166); before that there is no end (log 4). -/
def execColdResetEnd (s : State) : Host.Outcome State Fault Refusal :=
  match s.power with
  | .off => .next s
  | .counting t =>
    if t.mayExpire then
      if s.warmN then .next ({ s with power := .on, port := .running } : State).warmReset
      else .next { s with power := .on, port := .running }
    else .next s
  | .on => .next s

end Sys2Proof.Machine
end

