-- ==== Sys2Proof/Machine/Management.lean ====
section
/-! DEFINITION. The commands that the Management Unit carries out itself: READ-SETTING, WRITE-SETTING and the three writes with
behaviour of their own, IDENTIFY, WARM-RESET, and the answer to an unknown command (R154–R168). -/

namespace Sys2Proof.Machine

/-- READ-SETTING (R160, R178). -/
def readSettingCommand (block : List Byte) : Command := fun s =>
  if block.length = 2 then
    match SettingName.ofCode (byteAt block 0) (byteAt block 1) with
    | some name => .ok (s, block ++ fieldOf 4 (s.settings.value name))
    | none => .error .badOperand
  else .error .badOperand

/-- A write of SEGn-WIDTH while segment n is not OFFLINE (R161, check 5; R162). -/
def State.widthHeld (s : State) : SettingName → Bool
  | .width n => decide (s.engines[n].state ≠ .offline)
  | _ => false

/-- What a write does beside the change of the setting: a write of NOTICE-TARGET acts on delivery (R150, R164). -/
def State.afterWrite (s : State) : SettingName → State
  | .noticeTarget => s.setNotices (s.notices.retargeted s.settings.noticeTarget)
  | _ => s

/-- WRITE-SETTING (R161–R164, R178): the result gives the code, the segment, the previous value and the new one. -/
def writeSettingCommand (block : List Byte) : Command := fun s =>
  if block.length = 6 then
    match SettingName.ofCode (byteAt block 0) (byteAt block 1) with
    | none => .error .badOperand
    | some name =>
      match s.settings.write name (fieldAt block 2 4) with
      | none => .error .badOperand
      | some settings =>
        if s.widthHeld name then .error .busy
        else
          .ok (({ s with settings := settings } : State).afterWrite name,
            block.take 2 ++ fieldOf 4 (s.settings.value name) ++ fieldOf 4 (settings.value name))
  else .error .badOperand

/-- The result block of IDENTIFY (R165, R178). -/
def identification : List Byte :=
  fieldOf 2 0x5A6F ++ fieldOf 2 0x0B44 ++ [0x02, 48, 16, 4, 32, 16, 8, 16]

/-- IDENTIFY (R165). -/
def identifyCommand (block : List Byte) : Command := fun s =>
  if block = [] then .ok (s, identification) else .error .badOperand

/-- WARM-RESET (R167): answered MANAGED with an empty block, and the warm reset takes effect. -/
def warmResetCommand (block : List Byte) : Command := fun s =>
  if block = [] then .ok (s.warmReset, []) else .error .badOperand

/-! ### The rows -/

/-- READ_SETTING (R160). -/
def execReadSetting (h : Header) (operands : List Byte) (s : State) : Host.Outcome State Fault Refusal :=
  .next (manage h operands (readSettingCommand operands) s)

/-- WRITE_SETTING (R161). -/
def execWriteSetting (h : Header) (operands : List Byte) (s : State) : Host.Outcome State Fault Refusal :=
  .next (manage h operands (writeSettingCommand operands) s)

/-- NOTICE_TARGET (R150, R164): a WRITE-SETTING whose setting code is 07h. -/
def execNoticeTarget (h : Header) (rest : List Byte) (s : State) : Host.Outcome State Fault Refusal :=
  .next (manage h (0x07 :: rest) (writeSettingCommand (0x07 :: rest)) s)

/-- SEGN_WIDTH (R162): a WRITE-SETTING whose setting code is 10h. -/
def execSegnWidth (h : Header) (rest : List Byte) (s : State) : Host.Outcome State Fault Refusal :=
  .next (manage h (0x10 :: rest) (writeSettingCommand (0x10 :: rest)) s)

/-- MANAGEMENT_SET (R163): a WRITE-SETTING whose setting code is 01h. -/
def execManagementSet (h : Header) (rest : List Byte) (s : State) : Host.Outcome State Fault Refusal :=
  .next (manage h (0x01 :: rest) (writeSettingCommand (0x01 :: rest)) s)

/-- IDENTIFY (R165). -/
def execIdentify (h : Header) (operands : List Byte) (s : State) : Host.Outcome State Fault Refusal :=
  .next (manage h operands (identifyCommand operands) s)

/-- WARM_RESET (R167). -/
def execWarmReset (h : Header) (operands : List Byte) (s : State) : Host.Outcome State Fault Refusal :=
  .next (manage h operands (warmResetCommand operands) s)

/-- UNKNOWN_COMMAND (R156): a MANAGE ask with no command code, or an operand block above 24 bytes, is malformed (R172); then the
permission check comes first (R154). -/
def execUnknownCommand (h : Header) (body : List Byte) (s : State) : Host.Outcome State Fault Refusal :=
  .next
    (atPort h body.length
      (fun r s =>
        if body = [] ∨ Config.operandLimit + 1 < body.length then (s, .fault .malformed)
        else if s.permits r then (s, .fault .unknownCommand)
        else (s, .fault .notPermitted)) s)

end Sys2Proof.Machine
end

