-- ==== Sys2Proof/Machine/Port.lean ====
section
/-! DEFINITION. The messages the part sends (R171, R173, R174), their leaving the Upstream Port (R67, R68), and an ask of an unknown
kind (R58). -/

namespace Sys2Proof.Machine

/-- A message of the part (R171): its kind, its addressee, and its body, with the reserved bits and bytes at zero. -/
def messageBytes (kind : Byte) (addressee : Requester) (body : List Byte) : List Byte :=
  [kind, BitVec.ofNat 8 addressee.val, BitVec.ofNat 8 body.length, 0x00] ++ body

/-- The message kind of an answer (R171). -/
def Answer.kindCode : Answer → Byte
  | .data _ => 0x81
  | .taken => 0x82
  | .again _ => 0x83
  | .fault _ => 0x84
  | .managed _ => 0x85

/-- The body of an answer (R173). -/
def Answer.body : Answer → List Byte
  | .data bytes => bytes
  | .taken => []
  | .again reason => [reason.code]
  | .fault code => [code.code]
  | .managed block => block

/-- The message of an answer (R171, R173). -/
def Reply.bytes (r : Reply) : List Byte := messageBytes r.answer.kindCode r.requester r.answer.body

/-- Detail A of a NOTICE (R174). -/
def News.detailA : News → Byte
  | .writeLost _ _ cause => cause.code
  | .completionDiscarded _ slot _ _ => BitVec.ofNat 8 slot.val
  | .windowRetired _ generation _ => generation
  | .segmentFaulted _ cause => cause.code

/-- Detail B of a NOTICE (R174). -/
def News.detailB : News → Byte
  | .writeLost _ _ _ => 0
  | .completionDiscarded _ _ kind _ => kind.code
  | .windowRetired _ _ reason => reason.code
  | .segmentFaulted _ _ => 0

/-- The address of a NOTICE (R174). -/
def News.addressField : News → Nat
  | .writeLost _ address _ => address
  | .completionDiscarded _ _ _ address => address
  | .windowRetired _ _ _ => 0
  | .segmentFaulted _ _ => 0

/-- The body of a NOTICE (R174). -/
def NoticeMessage.body (m : NoticeMessage) : List Byte :=
  [m.sequence, m.news.key.1.code, BitVec.ofNat 8 m.news.key.2, BitVec.ofNat 8 m.repeats, m.flags, m.news.detailA,
    m.news.detailB] ++ fieldOf 4 m.news.addressField

/-- The message of a NOTICE (R171, R174). -/
def NoticeMessage.bytes (m : NoticeMessage) : List Byte := messageBytes 0x90 m.addressee m.body

/-- The next message of the named sort leaves the port (R67, R68): the first answer in answer order, or the first NOTICE handed
(log 7). -/
def State.send (s : State) : Outgoing → State
  | .answer =>
    match s.answers with
    | [] => s
    | r :: rest => { s with answers := rest, link := s.link ++ [r.bytes] }
  | .notice =>
    match s.handed with
    | [] => s
    | m :: rest => { s with handed := rest, link := s.link ++ [m.bytes] }

/-! ### The rows -/

/-- ASK_OF_UNKNOWN_KIND (R58): answered FAULT MALFORMED, or AGAIN RESTARTING while the port is RESTARTING; a message of fewer than 2
bytes is discarded (R171). -/
def execAskOfUnknownKind (message : List Byte) (s : State) : Host.Outcome State Fault Refusal :=
  .next
    (atPort (splitHeader (message.drop 1)).1 (splitHeader (message.drop 1)).2.length
      (fun _ s => (s, .fault .malformed)) s)

/-- MESSAGE_LEAVES_PORT (R67, R68). -/
def execMessageLeavesPort (which : Outgoing) (s : State) : Host.Outcome State Fault Refusal :=
  .next (s.send which)

end Sys2Proof.Machine
end

