-- ==== Sys2Proof/Machine/Time.lean ====
section
/-! DEFINITION. The Time Base: one tick of 1 µs, which a step takes on an empty queue (log 2). Every running timer counts, and a timer
that has run its n units puts its expiry in the queue: the latest instant that R1 allows. -/

namespace Sys2Proof.Machine

/-- A timer after one microsecond; a timer at its last microsecond stays there until its expiry is taken. -/
def Timer.tick (unit : Nat) (t : Timer) : Timer :=
  if 1 < t.micros then { t with micros := t.micros - 1 }
  else if 1 < t.units then { units := t.units - 1, micros := unit }
  else t

/-- The timer runs out at the next microsecond. -/
def Timer.due (t : Timer) : Bool := decide (t.units ≤ 1 ∧ t.micros ≤ 1)

/-- A running timer runs out at the next microsecond. -/
def timerDue (t : Option Timer) : Bool := t.any Timer.due

/-- The count of PWRGOOD after one microsecond (R51). -/
def Power.tick : Power → Power
  | .off => .off
  | .counting t => .counting (t.tick Config.powerUnit)
  | .on => .on

/-- The count of PWRGOOD runs out at the next microsecond (R51). -/
def Power.due : Power → Bool
  | .off => false
  | .counting t => t.due
  | .on => false

/-- A window's lease after one microsecond (R33). -/
def Window.tick (w : Window) : Window := { w with lease := w.lease.map (Timer.tick Config.leaseUnit) }

/-- An entry's discard timer after one microsecond (R84). -/
def Entry.tick (e : Entry) : Entry := { e with discard := e.discard.map (Timer.tick Config.discardUnit) }

/-- A current cycle after one microsecond (R117). -/
def RunningCycle.tick (c : RunningCycle) : RunningCycle := { c with timer := c.timer.tick Config.cycleUnit }

/-- An engine's timers after one microsecond (R117, R129). -/
def Engine.tick (e : Engine) : Engine :=
  { e with current := e.current.map RunningCycle.tick, resetPulse := e.resetPulse.map (Timer.tick Config.pulseUnit) }

/-- The ack timer after one microsecond (R143). -/
def NoticeUnit.tick (u : NoticeUnit) : NoticeUnit := { u with ackTimer := u.ackTimer.map (Timer.tick Config.ackUnit) }

/-- One command, where a condition holds. -/
def commandIf (due : Bool) (c : Instr) : List Instr := if due then [c] else []

/-- The expiries that fall at the next microsecond, in one fixed order (log 2). -/
def State.expiries (s : State) : List Instr :=
  commandIf s.power.due .coldResetEnd
    ++ (allWindows.flatMap fun w => commandIf (timerDue s.windows[w].lease) (.leaseExpiry w))
    ++ (allSlots.flatMap fun slot => commandIf (timerDue s.entries[slot].discard) (.discardExpiry slot))
    ++ (allSegments.flatMap fun n =>
      commandIf (timerDue (s.engines[n].current.map RunningCycle.timer)) (.cycleTimeout n)
        ++ commandIf (timerDue s.engines[n].resetPulse) (.resetPulseExpiry n))
    ++ commandIf (timerDue s.notices.ackTimer) .ackTimerExpiry

/-- One tick of 1 µs. -/
def State.tick (s : State) : State :=
  { s with
    power := s.power.tick
    windows := everyRecord s.windows Window.tick
    entries := everyRecord s.entries Entry.tick
    engines := everyRecord s.engines Engine.tick
    notices := s.notices.tick
    pending := s.pending ++ s.expiries }

end Sys2Proof.Machine
end

