-- ==== Sys2Proof/Machine/Pins.lean ====
section
/-! DEFINITION. The pins of a segment as the engine drives them, read from the state (R112, R116, R117, R179; log 13). What the spec does
not say of an output is said to be unsaid, and no value is put there (log 18). -/

namespace Sys2Proof.Machine

/-! ### Outputs -/

/-- What the part does to an output. -/
inductive Drive (α : Type) where
  /-- It does not drive the output. -/
  | floating
  /-- It drives the output; `none` is a value that the spec does not give (log 18). -/
  | driven (value : Option α)
  /-- The spec does not say whether it drives the output (log 18). -/
  | unstated
  deriving DecidableEq, Repr

/-- The level of a control line. -/
inductive Level where
  | low
  | high
  deriving DecidableEq, Repr

/-- The control lines of a segment are active low (R179). -/
def activeLow (asserted : Bool) : Level := if asserted then .low else .high

/-- The two phases of a cycle (R179). No command lies between them (log 13). -/
inductive CyclePhase where
  | address
  | data
  deriving DecidableEq, Repr

/-- The outputs of one segment (R179). -/
structure SegmentPins where
  /-- SEGn_ADDR[23:0]. -/
  addr : Drive (BitVec 24)
  /-- SEGn_DATA[7:0]. -/
  dataLow : Drive Byte
  /-- SEGn_DATA[15:8]. -/
  dataHigh : Drive Byte
  /-- SEGn_IOSEL. -/
  ioSel : Drive Level
  /-- SEGn_RD. -/
  rd : Level
  /-- SEGn_WR. -/
  wr : Level
  /-- SEGn_RST. -/
  rst : Level
  deriving DecidableEq, Repr

/-! ### A cycle -/

/-- The size code of a cycle on SEGn_DATA[1:0]: 00b a byte cycle, 01b a word cycle (R179). -/
def Lanes.size : Lanes → Byte
  | .low => 0
  | .high => 0
  | .both => 1

/-- The address of a cycle on SEGn_ADDR: in IO bits 23:16 are zero (R179). -/
def Cycle.addressBits (c : Cycle) : BitVec 24 :=
  match c.space with
  | .memory => BitVec.ofNat 24 c.address
  | .io => BitVec.ofNat 24 (c.address % 0x10000)

/-- The bytes of a write cycle on the lower and the upper half of the data path, on the lanes of R116. What stands on the half that a
byte cycle does not use is unsaid (log 18). -/
def Cycle.drives (c : Cycle) : Drive Byte × Drive Byte :=
  match c.lanes with
  | .low => (.driven c.data[0]?, .unstated)
  | .high => (.unstated, .driven c.data[0]?)
  | .both => (.driven c.data[0]?, .driven c.data[1]?)

/-- The halves of the data path in a read cycle: the target drives those that the cycle takes bytes from (R179). What stands on the
half that a byte cycle does not use is unsaid (log 18). -/
def Lanes.listens : Lanes → Drive Byte × Drive Byte
  | .low => (.floating, .unstated)
  | .high => (.unstated, .floating)
  | .both => (.floating, .floating)

/-- The data path in the data phase (R179). -/
def Cycle.dataHalves (c : Cycle) : Drive Byte × Drive Byte :=
  match c.kind with
  | .read => c.lanes.listens
  | .write => c.drives

/-- The pins in the address phase of a cycle (R179). -/
def Cycle.addressPins (c : Cycle) (rst : Level) : SegmentPins :=
  { addr := .driven (some c.addressBits), dataLow := .driven (some c.lanes.size), dataHigh := .driven (some 0),
    ioSel := .driven (some (activeLow (decide (c.space = .io)))), rd := activeLow false, wr := activeLow false, rst := rst }

/-- The pins in the data phase of a cycle (R179). The address pins and SEGn_IOSEL are those of the address phase alone (log 18). -/
def Cycle.dataPins (c : Cycle) (rst : Level) : SegmentPins :=
  { addr := .driven none, dataLow := c.dataHalves.1, dataHigh := c.dataHalves.2, ioSel := .driven none,
    rd := activeLow (decide (c.kind = .read)), wr := activeLow (decide (c.kind = .write)), rst := rst }

/-! ### A segment -/

/-- The pins of a segment while PWRGOOD is low: the reset line asserted, the strobes deasserted, the address and the data not driven
(R179). -/
def SegmentPins.unpowered : SegmentPins :=
  { addr := .floating, dataLow := .floating, dataHigh := .floating, ioSel := .unstated, rd := activeLow false, wr := activeLow false,
    rst := activeLow true }

/-- The pins of a segment with no current cycle while PWRGOOD is high: driven, with the strobes deasserted (R179, log 18). -/
def SegmentPins.idle (rst : Level) : SegmentPins :=
  { addr := .driven none, dataLow := .unstated, dataHigh := .unstated, ioSel := .driven none, rd := activeLow false,
    wr := activeLow false, rst := rst }

/-- The pins of a segment while PWRGOOD is high, in a phase of its current cycle where it has one (R112, R179). -/
def State.poweredPins (s : State) (n : SegmentNumber) (phase : CyclePhase) : SegmentPins :=
  let rst := activeLow (s.resetLine n)
  match s.engines[n].current, phase with
  | none, _ => .idle rst
  | some x, .address => x.cycle.addressPins rst
  | some x, .data => x.cycle.dataPins rst

/-- The pins of a segment (R112, R179): the outputs are driven while PWRGOOD is high. -/
def State.segmentPins (s : State) (n : SegmentNumber) (phase : CyclePhase) : SegmentPins :=
  match s.power with
  | .off => .unpowered
  | .counting _ => s.poweredPins n phase
  | .on => s.poweredPins n phase

end Sys2Proof.Machine
end

