-- ==== Sys2Proof/Machine/Dispatch.lean ====
section
/-! DEFINITION. One arm per command: each is one direct call of its meaning. -/

namespace Sys2Proof.Machine

/-- The effect of a command on everything but the queue. -/
def exec (i : Instr) (s : State) : Host.Outcome State Fault Refusal :=
  match i with
  | .read h body => Sys2Proof.Machine.execRead h body s
  | .write h body => Sys2Proof.Machine.execWrite h body s
  | .noticeAck h body => Sys2Proof.Machine.execNoticeAck h body s
  | .openWindow h ops => Sys2Proof.Machine.execOpen h ops s
  | .amend h ops => Sys2Proof.Machine.execAmend h ops s
  | .renew h ops => Sys2Proof.Machine.execRenew h ops s
  | .freeze h ops => Sys2Proof.Machine.execFreeze h ops s
  | .close h ops => Sys2Proof.Machine.execClose h ops s
  | .closeWithAbandon h ops => Sys2Proof.Machine.execCloseWithAbandon h ops s
  | .query h ops => Sys2Proof.Machine.execQuery h ops s
  | .lookup h ops => Sys2Proof.Machine.execLookup h ops s
  | .bringOnline h ops => Sys2Proof.Machine.execBringOnline h ops s
  | .takeOffline h ops => Sys2Proof.Machine.execTakeOffline h ops s
  | .resume h ops => Sys2Proof.Machine.execResume h ops s
  | .resetSegment h ops => Sys2Proof.Machine.execResetSegment h ops s
  | .segmentStatus h ops => Sys2Proof.Machine.execSegmentStatus h ops s
  | .pendingStatus h ops => Sys2Proof.Machine.execPendingStatus h ops s
  | .cancelRequester h ops => Sys2Proof.Machine.execCancelRequester h ops s
  | .resumeNotices h ops => Sys2Proof.Machine.execResumeNotices h ops s
  | .noticeStatus h ops => Sys2Proof.Machine.execNoticeStatus h ops s
  | .readSetting h ops => Sys2Proof.Machine.execReadSetting h ops s
  | .writeSetting h ops => Sys2Proof.Machine.execWriteSetting h ops s
  | .noticeTarget h rest => Sys2Proof.Machine.execNoticeTarget h rest s
  | .segnWidth h rest => Sys2Proof.Machine.execSegnWidth h rest s
  | .managementSet h rest => Sys2Proof.Machine.execManagementSet h rest s
  | .identify h ops => Sys2Proof.Machine.execIdentify h ops s
  | .warmReset h ops => Sys2Proof.Machine.execWarmReset h ops s
  | .unknownCommand h body => Sys2Proof.Machine.execUnknownCommand h body s
  | .warmNAssert => Sys2Proof.Machine.execWarmNAssert s
  | .warmNRelease => Sys2Proof.Machine.execWarmNRelease s
  | .pwrgoodFall => Sys2Proof.Machine.execPwrgoodFall s
  | .coldResetEnd => Sys2Proof.Machine.execColdResetEnd s
  | .leaseExpiry w => Sys2Proof.Machine.execLeaseExpiry w s
  | .discardExpiry slot => Sys2Proof.Machine.execDiscardExpiry slot s
  | .cycleTimeout n => Sys2Proof.Machine.execCycleTimeout n s
  | .cycleAcknowledged n data => Sys2Proof.Machine.execCycleAcknowledged n data s
  | .targetError n => Sys2Proof.Machine.execTargetError n s
  | .resetPulseExpiry n => Sys2Proof.Machine.execResetPulseExpiry n s
  | .ackTimerExpiry => Sys2Proof.Machine.execAckTimerExpiry s
  | .takeHead n => Sys2Proof.Machine.execTakeHead n s
  | .noticeSend => Sys2Proof.Machine.execNoticeSend s
  | .pwrgoodRise => Sys2Proof.Machine.execPwrgoodRise s
  | .askOfUnknownKind message => Sys2Proof.Machine.execAskOfUnknownKind message s
  | .messageLeavesPort which => Sys2Proof.Machine.execMessageLeavesPort which s

end Sys2Proof.Machine
end

