-- ==== Sys2Proof/Safety.lean ====
section
/-! DEFINITION. What the spec says of every state of the part: the invariants that the statements use. Each is closed under every step
from ANY state that has it, not only on the run from reset. -/

namespace Sys2Proof.Safety

open Sys2Proof.Machine

/-- The settings of one segment stay in the ranges of R158. -/
structure SegmentSettingsOk (v : SegmentSettings) : Prop where
  cycleTimeout : 1 ≤ v.cycleTimeout ∧ v.cycleTimeout ≤ 255
  noResponseLimit : 1 ≤ v.noResponseLimit ∧ v.noResponseLimit ≤ 15
  resetPulse : 1 ≤ v.resetPulse ∧ v.resetPulse ≤ 255

/-- Every setting has a value within its range, and MANAGEMENT-SET is never empty (R158, R163). -/
structure SettingsOk (v : Settings) : Prop where
  managementSet : v.managementSet ≠ 0
  pendingQuota : 1 ≤ v.pendingQuota ∧ v.pendingQuota ≤ 16
  discardInterval : 1 ≤ v.discardInterval ∧ v.discardInterval ≤ 255
  noticeAckTimeout : 1 ≤ v.noticeAckTimeout ∧ v.noticeAckTimeout ≤ 255
  segments : ∀ n : SegmentNumber, SegmentSettingsOk v.segments[n]

/-- One window record: the conditions of R3 on an OPEN or CLOSING window, a lease on an OPEN window that is not frozen
only (R33), a frozen window OPEN (R7), and no CLOSING window with nothing left in flight (R44). -/
structure WindowOk (w : Window) : Prop where
  mapping : w.visible = true → w.mappingOk = true
  top : w.visible = true → w.limit ≤ 0xFFFFFFFF
  lease : w.lease.isSome = true → w.state = .opened ∧ w.frozen = false
  frozen : w.frozen = true → w.state = .opened
  closing : w.state = .closing → 0 < w.inFlight

/-- The Window Table: every record, and no two OPEN or CLOSING windows of one space that share a byte (R9, R27). -/
structure WindowTableOk (s : State) : Prop where
  records : ∀ w : WindowNumber, WindowOk s.windows[w]
  disjoint : ∀ v w : WindowNumber, v ≠ w → s.windows[v].visible = true → s.windows[w].visible = true →
    s.windows[v].overlaps s.windows[w] = false

/-- One engine (R111, R120): what it holds in each state. -/
structure EngineOk (e : Engine) : Prop where
  inFlight : e.inFlight.isSome = true → e.state = .online
  current : e.current.isSome = true → e.inFlight.isSome = true
  faultCause : e.faultCause = .none ↔ e.state ≠ .faulted
  offlineEmpty : e.state = .offline → e.queue = []
  resettingOffline : e.state = .resetting → e.returnState = .offline → e.queue = []
  pulse : e.resetPulse.isSome = true ↔ e.state = .resetting
  noResponses : e.noResponses ≤ 15
  onlineNoResponses : e.state = .online → e.noResponses ≤ 14
  clearedNoResponses : e.state = .offline ∨ e.state = .resetting → e.noResponses = 0
  posted : e.postedCount ≤ 8

/-- Every engine, with the settings whose limit bounds the no-response counts, and the current cycles' numbers among those given
(log 17). -/
structure EnginesOk (s : State) : Prop where
  settings : SettingsOk s.settings
  engines : ∀ n : SegmentNumber, EngineOk s.engines[n]
  numbers : ∀ n : SegmentNumber, ∀ x ∈ s.engines[n].current, x.number < s.cyclesStarted

/-- The notices that are not in flight. -/
def waiting (u : NoticeUnit) : List Notice := u.queue.drop u.flying

/-- The Notice Unit (R138, R142, R145, R184) with the target it delivers to. -/
structure NoticesOk (u : NoticeUnit) (target : Option Requester) : Prop where
  room : u.queue.length ≤ 16
  repeats : ∀ x ∈ u.queue, 1 ≤ x.repeats ∧ x.repeats ≤ 255
  distinct : ((waiting u).map fun x => x.news.key).Nodup
  disabled : u.delivery = .disabled ↔ target = none
  timer : u.ackTimer.isSome = true ↔ u.delivery = .awaitAck
  head : u.delivery = .awaitAck ∨ u.delivery = .stalled → ∃ x ∈ u.queue.head?, x.sequence.isSome = true
  onlyHead : ∀ x ∈ u.queue.drop 1, x.sequence = none
  sequence : ∀ x ∈ u.queue.head?, ∀ q ∈ x.sequence, u.nextSequence = q + 1
  idleAttempts : u.delivery = .idle → u.attempts ≤ 2
  awaitAttempts : u.delivery = .awaitAck → 1 ≤ u.attempts ∧ u.attempts ≤ 3
  stalledAttempts : u.delivery = .stalled → u.attempts = 3
  disabledAttempts : u.delivery = .disabled → u.attempts = 0

/-- While the port is RESTARTING the part is quiet (R50, R57): no entry, no item, only frozen windows OPEN, nothing to send, every
setting at its reset value, and the reset has not ended. -/
structure Quiet (s : State) : Prop where
  entries : ∀ slot : Slot, s.entries[slot].state = .free ∧ s.entries[slot].discard = none
  engines : ∀ n : SegmentNumber, (s.engines[n].state = .offline ∧ s.engines[n].resetPulse = none ∨
    s.engines[n].state = .resetting ∧ s.engines[n].returnState = .offline) ∧ s.engines[n].queue = [] ∧
    s.engines[n].inFlight = none ∧ s.engines[n].current = none
  windows : ∀ w : WindowNumber, s.windows[w].lease = none ∧
    (s.windows[w].visible = true → s.windows[w].frozen = true ∧ s.windows[w].inFlight = 0)
  notices : s.notices = NoticeUnit.cold
  handed : s.handed = []
  settings : s.settings = Settings.initial
  lasting : s.warmN = true ∨ ∃ n : SegmentNumber, s.engines[n].state = .resetting

/-- RESTARTING is quiet, and the port is not RUNNING while WARM_N is asserted and the cold reset has ended (R50, R166). -/
structure PortOk (s : State) : Prop where
  restarting : s.port = .restarting → Quiet s
  warm : s.power = .on → s.warmN = true → s.port = .restarting

/-- While the cold reset lasts every block holds its cold reset values and there is nothing to send (R51). -/
structure ColdHeld (s : State) : Prop where
  port : s.port = .running
  answers : s.answers = []
  handed : s.handed = []
  windows : ∀ w : WindowNumber, s.windows[w] = Window.cold
  entries : ∀ slot : Slot, s.entries[slot] = Entry.cold
  engines : ∀ n : SegmentNumber, s.engines[n] = Engine.cold
  notices : s.notices = NoticeUnit.cold
  settings : s.settings = Settings.initial

/-- The routes of the posted items that lie in a work queue or are in flight. -/
def postedRoutes (s : State) : List Route :=
  allSegments.flatMap fun n => (postedItems s.engines[n].items).map PostedItem.route

/-- The routes of the occupied entries. -/
def entryRoutes (s : State) : List Route :=
  (allSlots.filter fun slot => s.entries[slot].occupied).map fun slot => s.entries[slot].route

/-- The routes of all items in the part (R19). -/
def itemRoutes (s : State) : List Route := entryRoutes s ++ postedRoutes s

/-- The route names the window, at whatever generation. -/
def routesTo (w : WindowNumber) : Route → Bool
  | .window v _ => decide (v = w)
  | .defaultRoute => false

/-- The in-flight counts agree with the items (R19): each window's count is the number of items that name it, and an item that names
a window names it at its present generation, with the window OPEN or CLOSING (R71). -/
structure CountsOk (s : State) : Prop where
  counts : ∀ w : WindowNumber, s.windows[w].inFlight = (itemRoutes s).countP (routesTo w)
  current : ∀ w : WindowNumber, ∀ g : Byte, Route.window w g ∈ itemRoutes s →
    s.windows[w].visible = true ∧ s.windows[w].generation = g

/-- One entry (R69): the fields that are absent outside COMPLETE, and the orphaned flag on an ISSUED entry only. -/
structure EntryOk (e : Entry) : Prop where
  outcome : e.outcome.isSome = true ↔ e.state = .complete
  discard : e.discard.isSome = true ↔ e.state = .complete
  readData : e.readData.isSome = true ↔ e.state = .complete ∧ e.kind = .read ∧ e.outcome = some .ok
  orphaned : e.orphaned = true → e.state = .issued

/-- Entries and work queues agree (R70, R74, R98): a QUEUED entry has one reference, in the queue of its segment; an ISSUED entry is
its engine's in-flight item; and no other slot is referred to. -/
structure ReferencesOk (s : State) : Prop where
  once : ∀ n : SegmentNumber, (referencedSlots s.engines[n].queue).Nodup
  queued : ∀ n : SegmentNumber, ∀ slot ∈ referencedSlots s.engines[n].queue,
    s.entries[slot].state = .queued ∧ s.entries[slot].segment = n
  issued : ∀ n : SegmentNumber, ∀ slot : Slot, s.engines[n].inFlight = some (.reference slot) →
    s.entries[slot].state = .issued ∧ s.entries[slot].segment = n
  hasReference : ∀ slot : Slot, s.entries[slot].state = .queued →
    slot ∈ referencedSlots s.engines[s.entries[slot].segment].queue
  hasEngine : ∀ slot : Slot, s.entries[slot].state = .issued →
    s.engines[s.entries[slot].segment].inFlight = some (.reference slot)

/-- The fields of a signature (R71) with the requester. -/
def sameAsk (d e : Entry) : Bool :=
  decide (d.requester = e.requester ∧ d.kind = e.kind ∧ d.space = e.space ∧ d.address = e.address ∧ d.count = e.count) &&
    (decide (d.kind = .read) || decide (d.writeData = e.writeData))

/-- No two occupied entries that are not orphaned have the same requester and the same signature (R74). -/
def SignaturesDistinct (s : State) : Prop :=
  ∀ a b : Slot, a ≠ b → s.entries[a].occupied = true → s.entries[b].occupied = true →
    s.entries[a].orphaned = false → s.entries[b].orphaned = false → sameAsk s.entries[a] s.entries[b] = false

/-- The whole of the Pending Table, the work queues and the in-flight counts at once: the parts need each other. -/
structure TablesOk (s : State) : Prop where
  windows : WindowTableOk s
  engines : EnginesOk s
  counts : CountsOk s
  entries : ∀ slot : Slot, EntryOk s.entries[slot]
  references : ReferencesOk s
  signatures : SignaturesDistinct s

end Sys2Proof.Safety
end

