-- ==== Sys2Proof/Safety/Vocabulary.lean ====
section
/-! DEFINITION. The words of the statements: asks and operand blocks written out byte by byte from the layouts of R171, R172 and
R175–R178 (not with the model's parsers), the codes of R173–R178 (not with the model's tables),
and the conditions that the rules put on them, in plain arithmetic. -/

namespace Sys2Proof.Safety

open Sys2Proof.Machine

/-! ### Arrival -/

/-- The port classifies asks: the cold reset has ended and the port is RUNNING (R48, R51). -/
abbrev Running (s : State) : Prop := s.power = .on ∧ s.port = .running

/-- The port classifies asks, and the requester is a member of MANAGEMENT-SET (R155). -/
abbrev Manages (s : State) (r : Requester) : Prop := Running s ∧ s.settings.managementSet.getLsbD r.val = true

/-- A byte that holds a number below 256. -/
def byteOf (n : Nat) : Byte := BitVec.ofNat 8 n

/-- The header of a well-formed ask (R171): bits 7:5 of the requester byte and the byte at offset 3 are zero. -/
def header (r : Requester) (bodyLength : Nat) : Header := .whole (byteOf r.val) (byteOf bodyLength) 0

/-- The MANAGE ask of a row with an operand block. -/
def manageAsk (row : Header → List Byte → Instr) (r : Requester) (block : List Byte) : Instr :=
  row (header r (block.length + 1)) block

/-- The WRITE-SETTING ask of a row that names its own setting code: its block is that code, then `rest`. -/
def settingAsk (row : Header → List Byte → Instr) (r : Requester) (rest : List Byte) : Instr :=
  row (header r (rest.length + 2)) rest

/-- The requester that a message carries (R171): bits 4:0 of its byte 1. -/
def messageSender (m : List Byte) : Requester := ⟨(m.getD 1 0).toNat % 32, Nat.mod_lt _ (by decide)⟩

/-! ### The codes of R173–R177 -/

/-- The fault code values of R173. -/
def faultByte : FaultCode → Byte
  | .malformed => 0x01
  | .unmapped => 0x02
  | .straddle => 0x03
  | .notPermitted => 0x04
  | .windowClosing => 0x05
  | .segmentOffline => 0x06
  | .segmentFaulted => 0x07
  | .noResponse => 0x08
  | .targetError => 0x09
  | .segmentReset => 0x0A
  | .abandoned => 0x0B
  | .unknownCommand => 0x20
  | .badOperand => 0x21
  | .badWindow => 0x22
  | .inUse => 0x23
  | .notOpen => 0x24
  | .overlap => 0x25
  | .frozen => 0x26
  | .noFreeWindow => 0x27
  | .busy => 0x28
  | .wrongState => 0x29

/-- The result codes of R174 as the outcome of an entry. -/
def outcomeByte : EntryOutcome → Byte
  | .ok => 0x01
  | .noResponse => 0x02
  | .targetError => 0x03
  | .segmentReset => 0x04
  | .abandoned => 0x05

/-- The result codes of R174 as the cause of a WRITE-LOST. -/
def lossByte : LossCause → Byte
  | .noResponse => 0x02
  | .targetError => 0x03
  | .segmentReset => 0x04
  | .abandoned => 0x05

/-- The result codes of R174 as a fault cause. -/
def causeByte : FaultCause → Byte
  | .none => 0x00
  | .targetError => 0x03
  | .noResponseLimit => 0x06

/-- The retire reason values of R174. -/
def retireByte : RetireReason → Byte
  | .closed => 0x01
  | .leaseExpired => 0x02
  | .abandoned => 0x03

/-- The entry kinds of R174 and R177. -/
def entryKindByte : AccessKind → Byte
  | .read => 0x01
  | .write => 0x02

/-- The spaces of R172 and R175. -/
def spaceByte : Space → Byte
  | .memory => 0x00
  | .io => 0x01

/-- The write policies of R175. -/
def writePolicyByte : WritePolicy → Byte
  | .posted => 0x00
  | .delayed => 0x01

/-- The absent policies of R175. -/
def absentPolicyByte : AbsentPolicy → Byte
  | .ones => 0x00
  | .fault => 0x01

/-- The window states of R175. -/
def windowStateByte : WindowState → Byte
  | .free => 0x00
  | .opened => 0x01
  | .closing => 0x02

/-- The entry states of R177. -/
def entryStateByte : EntryState → Byte
  | .free => 0x00
  | .queued => 0x01
  | .issued => 0x02
  | .complete => 0x03

/-- The engine states of R177. -/
def engineByte : EngineState → Byte
  | .offline => 0x00
  | .online => 0x01
  | .faulted => 0x02
  | .resetting => 0x03

/-- The delivery states of R177. -/
def deliveryByte : Delivery → Byte
  | .disabled => 0x00
  | .idle => 0x01
  | .awaitAck => 0x02
  | .stalled => 0x03

/-! ### Timers -/

/-- A timer runs, and all but the last of its units has passed: the earliest that R1 lets it expire. -/
abbrev MayExpire (t : Option Timer) : Prop := ∃ x, t = some x ∧ x.units ≤ 1

/-! ### Malformed messages -/

/-- The space, count and address of a READ or WRITE body are in the table of R172. -/
abbrev AccessFieldsOk (body : List Byte) : Prop :=
  let space := body.getD 0 0
  let count := (body.getD 1 0).toNat
  let address := fieldAt body 2 4
  space = 0x00 ∧ 1 ≤ count ∧ count ≤ 32
    ∨ space = 0x01 ∧ 1 ≤ count ∧ count ≤ 4 ∧ address ≤ 0xFFFF ∧ address / 4 = (address + count - 1) / 4

/-- The body fits the layout of its message kind (R58, R172). -/
abbrev BodyOk (kind : Byte) (body : List Byte) : Prop :=
  kind = 0x01 ∧ body.length = 6 ∧ AccessFieldsOk body
    ∨ kind = 0x02 ∧ body.length = 6 + (body.getD 1 0).toNat ∧ AccessFieldsOk body
    ∨ kind = 0x03 ∧ 1 ≤ body.length ∧ body.length ≤ 25
    ∨ kind = 0x04 ∧ body.length = 1

/-- A message of at least 2 bytes that no check of R58, R171 and R172 finds malformed. -/
abbrev MessageOk (m : List Byte) : Prop :=
  4 ≤ m.length ∧ m.length = 4 + (m.getD 2 0).toNat ∧ (m.getD 1 0).toNat < 32 ∧ m.getD 3 0 = 0x00
    ∧ BodyOk (m.getD 0 0) (m.drop 4)

/-! ### READ and WRITE -/

/-- A READ or WRITE ask that R53 admits: its data field is there for a WRITE only and holds exactly count bytes. -/
abbrev AskOk (a : Ask) : Prop :=
  a.address ≤ 0xFFFFFFFF ∧ 1 ≤ a.count
    ∧ (a.space = .memory ∧ a.count ≤ 32
      ∨ a.space = .io ∧ a.address ≤ 0xFFFF ∧ a.count ≤ 4 ∧ a.address / 4 = (a.address + a.count - 1) / 4)
    ∧ (a.kind = .read ∧ a.data = none ∨ a.kind = .write ∧ a.data.map List.length = some a.count)

/-- The body of an ask (R172): space, count, address, and the data of a WRITE. -/
def askBody (a : Ask) : List Byte :=
  [spaceByte a.space, byteOf a.count] ++ fieldOf 4 a.address ++ a.data.getD []

/-- The command that an ask is. -/
def arrival (a : Ask) : Instr :=
  match a.kind with
  | .read => .read (header a.requester (askBody a).length) (askBody a)
  | .write => .write (header a.requester (askBody a).length) (askBody a)

/-- The ask matches the entry (R75). -/
abbrev Matches (e : Entry) (a : Ask) : Prop :=
  e.state ≠ .free ∧ e.orphaned = false ∧ e.requester = a.requester ∧ e.kind = a.kind ∧ e.space = a.space
    ∧ e.address = a.address ∧ e.count = a.count ∧ (a.kind = .write → e.writeData = a.data)

/-- The ask matches no entry: it is a new ask (R78). -/
abbrev IsNew (s : State) (a : Ask) : Prop := ∀ slot : Slot, ¬ Matches s.entries[slot] a

/-- The last byte of an ask, computed without wrapping (R9). -/
abbrev lastByte (a : Ask) : Nat := a.address + a.count - 1

/-- The ask hits the window (R9): the window is OPEN or CLOSING, in the ask's space, and holds the first byte. -/
abbrev Hits (s : State) (a : Ask) (w : WindowNumber) : Prop :=
  s.windows[w].state ≠ .free ∧ s.windows[w].space = a.space ∧ s.windows[w].base ≤ a.address ∧ a.address ≤ s.windows[w].limit

/-- The ask hits no window (R9). -/
abbrev Misses (s : State) (a : Ask) : Prop := ∀ w : WindowNumber, ¬ Hits s a w

/-- The segment address maximum of a space (R3). -/
def addressMaximum : Space → Nat
  | .memory => 0x00FFFFFF
  | .io => 0xFFFF

/-- The default route setting of a space (R17). -/
def routeSetting (v : Settings) : Space → Option SegmentNumber
  | .memory => v.defaultRouteMemory
  | .io => v.defaultRouteIo

/-- The segment state check passes (R14): ONLINE, or RESETTING with return state ONLINE. -/
abbrev Proceeds (e : Engine) : Prop := e.state = .online ∨ e.state = .resetting ∧ e.returnState = .online

/-- The segment state check refuses with a code (R14). -/
abbrev SegmentRefuses (e : Engine) (code : FaultCode) : Prop :=
  (e.state = .offline ∨ e.state = .resetting ∧ e.returnState = .offline) ∧ code = .segmentOffline
    ∨ e.state = .faulted ∧ code = .segmentFaulted

/-- The requester may use the window (R6, R12). -/
abbrev Admits (w : Window) (r : Requester) : Prop := w.owners = [] ∨ r ∈ w.owners

/-- The checks of R10 to R14 against the hit window, in order: the first that fails gives the code. -/
abbrev HitRefused (s : State) (a : Ask) (w : WindowNumber) (code : FaultCode) : Prop :=
  s.windows[w].limit < lastByte a ∧ code = .straddle
    ∨ lastByte a ≤ s.windows[w].limit ∧ s.windows[w].state = .closing ∧ code = .windowClosing
    ∨ lastByte a ≤ s.windows[w].limit ∧ s.windows[w].state = .opened ∧ ¬ Admits s.windows[w] a.requester
        ∧ code = .notPermitted
    ∨ lastByte a ≤ s.windows[w].limit ∧ s.windows[w].state = .opened ∧ Admits s.windows[w] a.requester
        ∧ s.windows[w].frozen = false ∧ SegmentRefuses s.engines[s.windows[w].segment] code

/-- Some byte of the ask lies in an OPEN or CLOSING window of its space (R17, check 3). -/
abbrev RunsIntoWindow (s : State) (a : Ask) : Prop :=
  ∃ w : WindowNumber, s.windows[w].state ≠ .free ∧ s.windows[w].space = a.space
    ∧ s.windows[w].base ≤ lastByte a ∧ a.address ≤ s.windows[w].limit

/-- The checks of R17 for an ask that misses, in order: the first that fails gives the code. -/
abbrev MissRefused (s : State) (a : Ask) (code : FaultCode) : Prop :=
  routeSetting s.settings a.space = none ∧ code = .unmapped
    ∨ ∃ n : SegmentNumber, routeSetting s.settings a.space = some n
      ∧ (addressMaximum a.space < lastByte a ∧ code = .unmapped
        ∨ lastByte a ≤ addressMaximum a.space ∧ RunsIntoWindow s a ∧ code = .straddle
        ∨ lastByte a ≤ addressMaximum a.space ∧ ¬ RunsIntoWindow s a ∧ SegmentRefuses s.engines[n] code)

/-- What decode fixes into an item (R15, R16, R18). -/
structure Target where
  route : Route
  segment : SegmentNumber
  downstream : Nat
  absentPolicy : AbsentPolicy
  posted : Bool
  deriving DecidableEq, Repr

/-- A new ask passes decode through the window it hits, with the translation of R15 and the form of R16. -/
abbrev PassesWindow (s : State) (a : Ask) (w : WindowNumber) (x : Target) : Prop :=
  Hits s a w ∧ lastByte a ≤ s.windows[w].limit ∧ s.windows[w].state = .opened ∧ Admits s.windows[w] a.requester
    ∧ s.windows[w].frozen = false ∧ Proceeds s.engines[s.windows[w].segment]
    ∧ x = { route := .window w s.windows[w].generation, segment := s.windows[w].segment,
            downstream := a.address - s.windows[w].base + s.windows[w].segmentBase,
            absentPolicy := s.windows[w].absentPolicy,
            posted := decide (a.space = .memory ∧ a.kind = .write ∧ s.windows[w].writePolicy = .posted) }

/-- A new ask passes decode on the default route of its space (R17, R18). -/
abbrev PassesDefault (s : State) (a : Ask) (x : Target) : Prop :=
  Misses s a ∧ routeSetting s.settings a.space = some x.segment ∧ lastByte a ≤ addressMaximum a.space
    ∧ ¬ RunsIntoWindow s a ∧ Proceeds s.engines[x.segment]
    ∧ x = { route := .defaultRoute, segment := x.segment, downstream := a.address,
            absentPolicy := s.settings.defaultAbsentPolicy, posted := decide (a.space = .memory ∧ a.kind = .write) }

/-- A new ask passes decode. -/
abbrev Passes (s : State) (a : Ask) (x : Target) : Prop :=
  (∃ w : WindowNumber, PassesWindow s a w x) ∨ PassesDefault s a x

/-- The entry holds a place in the requester's quota (R73). -/
abbrev HoldsQuota (e : Entry) (r : Requester) : Prop := e.state ≠ .free ∧ e.orphaned = false ∧ e.requester = r

/-- The quota count of a requester (R73). -/
def quotaHeld (s : State) (r : Requester) : Nat :=
  (Finset.univ.filter fun slot : Slot => HoldsQuota s.entries[slot] r).card

/-- The answer that delivers an outcome: the table of R77. -/
abbrev Delivers (e : Entry) (answer : Answer) : Prop :=
  e.outcome = some .ok ∧ e.kind = .read ∧ e.readData.map Answer.data = some answer
    ∨ e.outcome = some .ok ∧ e.kind = .write ∧ answer = .taken
    ∨ e.outcome = some .noResponse ∧ e.absentPolicy = .ones ∧ e.kind = .read ∧ answer = .data (List.replicate e.count 0xFF)
    ∨ e.outcome = some .noResponse ∧ e.absentPolicy = .ones ∧ e.kind = .write ∧ answer = .taken
    ∨ e.outcome = some .noResponse ∧ e.absentPolicy = .fault ∧ answer = .fault .noResponse
    ∨ e.outcome = some .targetError ∧ answer = .fault .targetError
    ∨ e.outcome = some .segmentReset ∧ answer = .fault .segmentReset
    ∨ e.outcome = some .abandoned ∧ answer = .fault .abandoned

/-- An entry made FREE (R69, R77): what it holds only in ISSUED or COMPLETE goes, the other fields keep their values. -/
def emptied (e : Entry) : Entry :=
  { e with state := .free, orphaned := false, outcome := none, readData := none, discard := none }

/-- An entry made COMPLETE at a claim at which DISCARD-INTERVAL is `interval` (R80, R84). -/
def finished (e : Entry) (outcome : EntryOutcome) (readData : Option (List Byte)) (interval : Nat) : Entry :=
  { e with state := .complete, outcome := some outcome, readData, discard := some (Timer.start Config.discardUnit interval) }

/-! ### Window commands -/

/-- The conditions of R26 on a mapping, but for those that the operand encodings already give. -/
abbrev MappingValid (space : Space) (base limit segmentBase : Nat) (policy : WritePolicy) (owners : List Requester) : Prop :=
  let granule := if space = .memory then 16 else 4
  base % granule = 0 ∧ (limit + 1) % granule = 0 ∧ base ≤ limit ∧ (space = .io → limit ≤ 0xFFFF)
    ∧ segmentBase % granule = 0 ∧ segmentBase + (limit - base) ≤ addressMaximum space
    ∧ (space = .io → policy = .delayed) ∧ owners.Nodup

/-- The range shares a byte with an OPEN or CLOSING window of its space other than `w` (R27, R30). -/
abbrev Overlaps (s : State) (w : WindowNumber) (space : Space) (base limit : Nat) : Prop :=
  ∃ v : WindowNumber, v ≠ w ∧ s.windows[v].state ≠ .free ∧ s.windows[v].space = space ∧ s.windows[v].base ≤ limit
    ∧ base ≤ s.windows[v].limit

/-- The four owner places of a block (R175): zero beyond the list. -/
def ownerField (owners : List Requester) : List Byte :=
  [(owners[0]?.map fun r => byteOf r.val).getD 0, (owners[1]?.map fun r => byteOf r.val).getD 0,
    (owners[2]?.map fun r => byteOf r.val).getD 0, (owners[3]?.map fun r => byteOf r.val).getD 0]

/-- The values that OPEN's fields can hold (R175, R176). -/
abbrev OpenEncodable (o : OpenOperands) : Prop :=
  o.owners.length ≤ 4 ∧ o.lease ≤ 65535 ∧ o.base ≤ 0xFFFFFFFF ∧ o.limit ≤ 0xFFFFFFFF ∧ o.segmentBase ≤ 0xFFFFFFFF

/-- The operand block of OPEN (R176). -/
def openBlock (o : OpenOperands) : List Byte :=
  [(o.window.map fun w => byteOf w.val).getD 0xFF, spaceByte o.space, byteOf o.segment.val,
    writePolicyByte o.writePolicy, absentPolicyByte o.absentPolicy, byteOf o.owners.length]
  ++ ownerField o.owners ++ fieldOf 2 o.lease ++ fieldOf 4 o.base ++ fieldOf 4 o.limit ++ fieldOf 4 o.segmentBase

/-- OPEN's operands name a valid mapping (R26). -/
abbrev OpenValid (o : OpenOperands) : Prop := MappingValid o.space o.base o.limit o.segmentBase o.writePolicy o.owners

/-- The record OPEN chooses (R25): the named one, or for ANY the lowest-numbered; it is FREE. -/
abbrev Chosen (s : State) (window : Option WindowNumber) (w : WindowNumber) : Prop :=
  s.windows[w].state = .free ∧ (window = some w ∨ window = none ∧ ∀ v : WindowNumber, v < w → s.windows[v].state ≠ .free)

/-- The values that AMEND's fields can hold (R175, R176). -/
abbrev AmendEncodable (o : AmendOperands) : Prop :=
  (o.owners.getD []).length ≤ 4 ∧ o.base.getD 0 ≤ 0xFFFFFFFF ∧ o.limit.getD 0 ≤ 0xFFFFFFFF ∧ o.segmentBase.getD 0 ≤ 0xFFFFFFFF

/-- A presence bit of AMEND (R176). -/
def presenceBit (bit : Nat) (present : Bool) : Nat := if present then 2 ^ bit else 0

/-- The operand block of AMEND (R176). -/
def amendBlock (o : AmendOperands) : List Byte :=
  [byteOf o.window.val,
    byteOf (presenceBit 0 o.base.isSome + presenceBit 1 o.limit.isSome + presenceBit 2 o.segment.isSome
      + presenceBit 3 o.segmentBase.isSome + presenceBit 4 o.writePolicy.isSome + presenceBit 5 o.absentPolicy.isSome
      + presenceBit 6 o.owners.isSome),
    (o.segment.map fun n => byteOf n.val).getD 0, (o.writePolicy.map writePolicyByte).getD 0,
    (o.absentPolicy.map absentPolicyByte).getD 0, byteOf (o.owners.getD []).length]
  ++ ownerField (o.owners.getD []) ++ fieldOf 4 (o.base.getD 0) ++ fieldOf 4 (o.limit.getD 0) ++ fieldOf 4 (o.segmentBase.getD 0)

/-- The merged record of AMEND (R29): each present value replaces its field. -/
def amended (o : AmendOperands) (w : Window) : Window :=
  { w with
    base := o.base.getD w.base
    limit := o.limit.getD w.limit
    segment := o.segment.getD w.segment
    segmentBase := o.segmentBase.getD w.segmentBase
    writePolicy := o.writePolicy.getD w.writePolicy
    absentPolicy := o.absentPolicy.getD w.absentPolicy
    owners := o.owners.getD w.owners }

/-- The merged record is a valid mapping (R30, check 4). -/
abbrev WindowValid (w : Window) : Prop := MappingValid w.space w.base w.limit w.segmentBase w.writePolicy w.owners

/-- A window with `k` fewer items in flight (R21, R44): CLOSING with none left, it is FREE. -/
def lowered (w : Window) (k : Nat) : Window :=
  { w with inFlight := w.inFlight - k, state := if w.state = .closing ∧ w.inFlight - k = 0 then .free else w.state }

/-- The WINDOW-RETIRED of a window that the fall of its count by `k` retires (R44, R45). -/
def retiredNotice (n : WindowNumber) (w : Window) (k : Nat) (u : NoticeUnit) : NoticeUnit :=
  if w.state = .closing ∧ w.inFlight - k = 0 then u.raise (.windowRetired n w.generation w.retireReason) 1 else u

/-- The item in a list names the window's route and is unstarted work: what an abandonment takes (R41, R42). -/
def takenByAbandonment (s : State) (r : Route) (i : Item) : Bool :=
  match i with
  | .posted p => decide (p.route = r)
  | .reference slot => decide (s.entries[slot].state = .queued ∧ s.entries[slot].route = r)

/-- The queued posted items of a route on a segment (R42). -/
def lostTo (s : State) (r : Route) (n : SegmentNumber) : List PostedItem :=
  s.engines[n].queue.filterMap fun
    | .posted p => if p.route = r then some p else none
    | .reference _ => none

/-- The WRITE-LOST that reports posted items lost together, the first of them by its address (R42, R130). -/
def lostNotice (n : SegmentNumber) (cause : LossCause) (lost : List PostedItem) (u : NoticeUnit) : NoticeUnit :=
  match lost with
  | [] => u
  | p :: _ => u.raise (.writeLost n p.downstream cause) lost.length

/-! ### Segment engines -/

/-- An engine with nothing in flight (R111). -/
def idled (e : Engine) : Engine := { e with inFlight := none, current := none, remaining := [], kept := [] }

/-- The downstream addresses of a cycle's bytes (R115, R116). -/
def cycleAddresses (c : Cycle) : List Nat :=
  match c.lanes with
  | .both => [c.address, c.address + 1]
  | .low => [c.address]
  | .high => [c.address]

/-- The bytes a read cycle returns, from the lanes of R116: the lower half is SEGn_DATA[7:0]. -/
def laneBytes (l : Lanes) (data : BitVec 16) : List Byte :=
  match l with
  | .low => [byteOf (data.toNat % 256)]
  | .high => [byteOf (data.toNat / 256)]
  | .both => [byteOf (data.toNat % 256), byteOf (data.toNat / 256)]

/-- The bytes an acknowledged cycle keeps (R117): a write cycle returns none. -/
def returned (c : Cycle) (data : BitVec 16) : List Byte :=
  match c.kind with
  | .read => laneBytes c.lanes data
  | .write => []

/-! ### Notices -/

/-- The merge of R141 in a queue whose head leaves flight. -/
abbrev MergesTo (q q' : List Notice) : Prop :=
  q = [] ∧ q' = []
    ∨ (∃ x rest, q = x :: rest ∧ (∀ y ∈ rest, y.news.key ≠ x.news.key) ∧ q' = q)
    ∨ ∃ x pre y post, q = x :: (pre ++ y :: post) ∧ (∀ z ∈ pre, z.news.key ≠ x.news.key) ∧ y.news.key = x.news.key
        ∧ q' = { x with repeats := min 255 (x.repeats + y.repeats) } :: (pre ++ post)

/-! ### Settings -/

/-- The setting code and the segment number field that name a setting (R178). -/
def settingCode : SettingName → Byte × Byte
  | .managementSet => (0x01, 0)
  | .pendingQuota => (0x02, 0)
  | .discardInterval => (0x03, 0)
  | .defaultRouteMemory => (0x04, 0)
  | .defaultRouteIo => (0x05, 0)
  | .defaultAbsentPolicy => (0x06, 0)
  | .noticeTarget => (0x07, 0)
  | .noticeAckTimeout => (0x08, 0)
  | .width n => (0x10, byteOf n.val)
  | .cycleTimeout n => (0x11, byteOf n.val)
  | .noResponseLimit n => (0x12, byteOf n.val)
  | .haltOnError n => (0x13, byteOf n.val)
  | .resetPulse n => (0x14, byteOf n.val)

/-- A number, or FFFF_FFFFh NONE (R178). -/
def numberOrNone {n : Nat} : Option (Fin n) → Nat
  | some x => x.val
  | none => 0xFFFFFFFF

/-- The value of a setting in the encoding of R178. -/
def settingValue (v : Settings) : SettingName → Nat
  | .managementSet => v.managementSet.toNat
  | .pendingQuota => v.pendingQuota
  | .discardInterval => v.discardInterval
  | .defaultRouteMemory => numberOrNone v.defaultRouteMemory
  | .defaultRouteIo => numberOrNone v.defaultRouteIo
  | .defaultAbsentPolicy => if v.defaultAbsentPolicy = .ones then 0 else 1
  | .noticeTarget => numberOrNone v.noticeTarget
  | .noticeAckTimeout => v.noticeAckTimeout
  | .width n => if v.segments[n].width = .eight then 8 else 16
  | .cycleTimeout n => v.segments[n].cycleTimeout
  | .noResponseLimit n => v.segments[n].noResponseLimit
  | .haltOnError n => if v.segments[n].haltOnError then 1 else 0
  | .resetPulse n => v.segments[n].resetPulse

/-- The values a setting admits in its encoding (R158, R178), of those that a 4-byte field holds. -/
def admits : SettingName → Nat → Prop
  | .managementSet, v => v ≠ 0
  | .pendingQuota, v => 1 ≤ v ∧ v ≤ 16
  | .discardInterval, v => 1 ≤ v ∧ v ≤ 255
  | .defaultRouteMemory, v => v ≤ 3 ∨ v = 0xFFFFFFFF
  | .defaultRouteIo, v => v ≤ 3 ∨ v = 0xFFFFFFFF
  | .defaultAbsentPolicy, v => v ≤ 1
  | .noticeTarget, v => v ≤ 31 ∨ v = 0xFFFFFFFF
  | .noticeAckTimeout, v => 1 ≤ v ∧ v ≤ 255
  | .width _, v => v = 8 ∨ v = 16
  | .cycleTimeout _, v => 1 ≤ v ∧ v ≤ 255
  | .noResponseLimit _, v => 1 ≤ v ∧ v ≤ 15
  | .haltOnError _, v => v ≤ 1
  | .resetPulse _, v => 1 ≤ v ∧ v ≤ 255

/-- A write of SEGn-WIDTH that finds its segment out of OFFLINE (R161, check 5). -/
abbrev WidthBusy (s : State) (name : SettingName) : Prop :=
  ∃ n : SegmentNumber, name = .width n ∧ s.engines[n].state ≠ .offline

/-! ### Operand blocks -/

/-- The operand length of each command code (R176–R178), and whether its operand byte 0 is a window number. -/
def operandLengths : List (Byte × Nat × Bool) :=
  [(0x10, 24, true), (0x11, 22, true), (0x12, 3, true), (0x13, 1, true), (0x14, 2, true), (0x15, 1, true), (0x16, 5, false),
    (0x20, 1, false), (0x21, 1, false), (0x22, 1, false), (0x23, 1, false), (0x24, 1, false), (0x30, 1, false),
    (0x31, 1, false), (0x40, 0, false), (0x41, 0, false), (0x50, 2, false), (0x51, 6, false), (0x52, 0, false),
    (0x53, 0, false)]

/-- Operand byte 0 passes the window check of R175: 47 at most, or FFh ANY in OPEN. -/
abbrev WindowByteOk (code : Byte) (block : List Byte) : Prop :=
  block.head?.any (fun b => decide (b.toNat ≤ 47 ∨ code = 0x10 ∧ b = 0xFF)) = true

end Sys2Proof.Safety
end

