-- ==== Sys2Proof/Certificates/Slice0/Obligations.lean ====
section
/-! DEFINITION. The statements for the provers. Each is about commands as the outside world gives them, in every state that meets
its hypotheses; a conclusion "exec c s = next t" gives the whole next state, so that what it does not name is unchanged. -/

open Sys2Proof Sys2Proof.Machine Sys2Proof.Safety

/-! ### The machine -/

/-- A step takes the command at the front of the queue and executes it with the queue's rest in place. -/
def Obligations.StepTakesTheFrontCommand : Prop :=
  ∀ (s : State) (c : Instr) (rest : List Instr), s.pending = c :: rest → step s = exec c { s with pending := rest }

/-- Every command of the table completes, in every state, and leaves the queue alone. -/
def Obligations.EveryCommandCompletes : Prop :=
  ∀ (c : Instr) (s : State), ∃ t, exec c s = .next t ∧ t.pending = s.pending

/-- A step on an empty queue is one microsecond (the model's own tick, log 2): every running timer counts it, in its own unit of the Time
Base, and nothing else changes but the queue. What enters the queue is the expiry of every timer that runs out (log 1), once, and
nothing more. -/
def Obligations.IdleStepOnlyCountsTime : Prop :=
  ∀ s : State, s.pending = [] → ∃ t, step s = .next t
    ∧ t.warmN = s.warmN ∧ t.port = s.port ∧ t.answers = s.answers ∧ t.handed = s.handed ∧ t.link = s.link
    ∧ t.settings = s.settings ∧ t.cyclesStarted = s.cyclesStarted
    ∧ t.power =
        (match s.power with
          | .off => .off
          | .counting x => .counting (x.tick 1)
          | .on => .on)
    ∧ (∀ w : WindowNumber, t.windows[w] = { s.windows[w] with lease := s.windows[w].lease.map (Timer.tick 1000) })
    ∧ (∀ slot : Slot, t.entries[slot] = { s.entries[slot] with discard := s.entries[slot].discard.map (Timer.tick 64) })
    ∧ (∀ n : SegmentNumber, t.engines[n] =
        { s.engines[n] with
          current := s.engines[n].current.map fun x => { x with timer := x.timer.tick 1 }
          resetPulse := s.engines[n].resetPulse.map (Timer.tick 1) })
    ∧ t.notices = { s.notices with ackTimer := s.notices.ackTimer.map (Timer.tick 100) }
    ∧ t.pending.Nodup
    ∧ ∀ c : Instr, c ∈ t.pending ↔
        (∃ x, c = .coldResetEnd ∧ s.power = .counting x ∧ x.due = true)
        ∨ (∃ (w : WindowNumber) (x : Timer), c = .leaseExpiry w ∧ s.windows[w].lease = some x ∧ x.due = true)
        ∨ (∃ (slot : Slot) (x : Timer), c = .discardExpiry slot ∧ s.entries[slot].discard = some x ∧ x.due = true)
        ∨ (∃ (n : SegmentNumber) (x : RunningCycle), c = .cycleTimeout n ∧ s.engines[n].current = some x ∧ x.timer.due = true)
        ∨ (∃ (n : SegmentNumber) (x : Timer), c = .resetPulseExpiry n ∧ s.engines[n].resetPulse = some x ∧ x.due = true)
        ∨ ∃ x, c = .ackTimerExpiry ∧ s.notices.ackTimer = some x ∧ x.due = true

/-- A timer started at n units, after k ticks of which `unit` make up one unit (R1): it has n less the whole units passed left, it may
expire from n - 1 units on, and its expiry is due at the tick that completes n units, the latest that R1 allows (log 1, log 2). -/
def Obligations.TimerRunsForNUnits : Prop :=
  ∀ unit n k : Nat, 1 ≤ unit → 1 ≤ n →
    let x := (Timer.tick unit)^[k] (Timer.start unit n)
    (k < n * unit → x.units = n - k / unit) ∧ (x.units ≤ 1 ↔ (n - 1) * unit ≤ k) ∧ (x.due = true ↔ n * unit ≤ k + 1)

/-- The whole state right after a cold reset: the values of R2, R48, R51, R69, R111, R142 and R158; PWRGOOD high and WARM_N released are
log 6, the empty record of the link log 8, the count of cycles from 0 log 17. -/
def Obligations.ResetStateHoldsTheColdValues : Prop :=
  State.reset.power = .on ∧ State.reset.warmN = false ∧ State.reset.port = .running ∧ State.reset.answers = []
    ∧ State.reset.handed = [] ∧ State.reset.link = [] ∧ State.reset.pending = [] ∧ State.reset.cyclesStarted = 0
    ∧ (∀ w : WindowNumber, State.reset.windows[w] =
        { state := .free, generation := 0, space := .memory, base := 0, limit := 0x0000000F, segment := 0, segmentBase := 0,
          writePolicy := .delayed, absentPolicy := .ones, owners := [], lease := none, frozen := false, retireReason := .closed,
          inFlight := 0 })
    ∧ (∀ slot : Slot, State.reset.entries[slot] =
        { state := .free, requester := 0, kind := .read, space := .memory, address := 0, count := 1, writeData := none,
          route := .defaultRoute, segment := 0, downstream := 0, absentPolicy := .ones, orphaned := false, outcome := none,
          readData := none, discard := none })
    ∧ (∀ n : SegmentNumber, State.reset.engines[n] =
        { state := .offline, returnState := .offline, queue := [], inFlight := none, current := none, remaining := [],
          kept := [], noResponses := 0, faultCause := .none, resetPulse := none })
    ∧ State.reset.notices =
        { queue := [], delivery := .disabled, nextSequence := 0, attempts := 0, ackTimer := none, overrun := false,
          overrunCarried := false }
    ∧ State.reset.settings.managementSet = 1 ∧ State.reset.settings.pendingQuota = 4
    ∧ State.reset.settings.discardInterval = 16 ∧ State.reset.settings.defaultRouteMemory = none
    ∧ State.reset.settings.defaultRouteIo = none ∧ State.reset.settings.defaultAbsentPolicy = .ones
    ∧ State.reset.settings.noticeTarget = none ∧ State.reset.settings.noticeAckTimeout = 10
    ∧ ∀ n : SegmentNumber, State.reset.settings.segments[n] =
        { width := .eight, cycleTimeout := 16, noResponseLimit := 4, haltOnError := true, resetPulse := 20 }

/-! ### Messages -/

/-- Every message spells one command, and the bytes of a command are its own: no byte is dropped either way. That a header may be cut and
which rows share a command code are log 9. -/
def Obligations.MessagesAndAsksAgree : Prop :=
  (∀ m : List Byte, (Instr.ofMessage m).wellFormed = true ∧ (Instr.ofMessage m).message = some m)
    ∧ ∀ (c : Instr) (m : List Byte), c.wellFormed = true → c.message = some m → Instr.ofMessage m = c

/-- Some messages written out from R171, R172, R175, R176 and R178, and the rows they are. -/
def Obligations.SampleMessagesSpellTheirRows : Prop :=
  Instr.ofMessage [0x01, 0x04, 0x06, 0x00, 0x00, 0x02, 0x00, 0x41, 0x40, 0x00]
      = .read (header 4 6) [0x00, 0x02, 0x00, 0x41, 0x40, 0x00]
    ∧ Instr.ofMessage [0x02, 0x1F, 0x07, 0x00, 0x01, 0x01, 0x04, 0x03, 0x00, 0x00, 0xA5]
      = .write (header 31 7) [0x01, 0x01, 0x04, 0x03, 0x00, 0x00, 0xA5]
    ∧ Instr.ofMessage [0x03, 0x00, 0x04, 0x00, 0x12, 0x07, 0xE8, 0x03] = manageAsk .renew 0 [0x07, 0xE8, 0x03]
    ∧ Instr.ofMessage [0x03, 0x00, 0x03, 0x00, 0x14, 0x07, 0x00] = manageAsk .close 0 [0x07, 0x00]
    ∧ Instr.ofMessage [0x03, 0x00, 0x03, 0x00, 0x14, 0x07, 0x01] = manageAsk .closeWithAbandon 0 [0x07, 0x01]
    ∧ Instr.ofMessage [0x03, 0x00, 0x07, 0x00, 0x51, 0x07, 0x00, 0x1F, 0x00, 0x00, 0x00]
      = settingAsk .noticeTarget 0 [0x00, 0x1F, 0x00, 0x00, 0x00]
    ∧ Instr.ofMessage [0x03, 0x00, 0x07, 0x00, 0x51, 0x10, 0x02, 0x10, 0x00, 0x00, 0x00]
      = settingAsk .segnWidth 0 [0x02, 0x10, 0x00, 0x00, 0x00]
    ∧ Instr.ofMessage [0x03, 0x00, 0x01, 0x00, 0x53] = manageAsk .warmReset 0 []
    ∧ Instr.ofMessage [0x03, 0x00, 0x01, 0x00, 0x17] = .unknownCommand (header 0 1) [0x17]
    ∧ Instr.ofMessage [0x04, 0x05, 0x01, 0x00, 0x2A] = .noticeAck (header 5 1) [0x2A]
    ∧ Instr.ofMessage [0x90, 0x05, 0x00, 0x00] = .askOfUnknownKind [0x90, 0x05, 0x00, 0x00]

/-! ### The Upstream Port -/

/-- No message is received while the cold reset lasts (R51), a message of fewer than 2 bytes is discarded (R171), and every other message
is answered AGAIN RESTARTING while the port is RESTARTING, with no other effect (R57). -/
def Obligations.MessagesThatReachNoBlock : Prop :=
  ∀ (m : List Byte) (s : State),
    (s.power ≠ .on → exec (Instr.ofMessage m) s = .next s)
    ∧ (m.length < 2 → exec (Instr.ofMessage m) s = .next s)
    ∧ (2 ≤ m.length → s.power = .on → s.port = .restarting →
        exec (Instr.ofMessage m) s = .next (s.answer (messageSender m) (.again .restarting)))

/-- While the port is RUNNING a malformed message is answered FAULT MALFORMED and changes nothing else; so is a message of a kind that
names none of the four asks, the row of its own. -/
def Obligations.MalformedAsksAreRefused : Prop :=
  (∀ (m : List Byte) (s : State), 2 ≤ m.length → Running s → ¬ MessageOk m →
    exec (Instr.ofMessage m) s = .next (s.answer (messageSender m) (.fault .malformed)))
  ∧ ∀ (kind second : Byte) (rest : List Byte) (s : State), kind ≠ 0x01 → kind ≠ 0x02 → kind ≠ 0x03 → kind ≠ 0x04 → Running s →
      exec (.askOfUnknownKind (kind :: second :: rest)) s
        = .next (s.answer (messageSender (kind :: second :: rest)) (.fault .malformed))

/-- Every message received while the port classifies asks is answered exactly once, to its sender, behind the answers before it, and
only a malformed one is answered FAULT MALFORMED. -/
def Obligations.EveryAskIsAnsweredOnce : Prop :=
  ∀ (m : List Byte) (s : State), 2 ≤ m.length → Running s →
    ∃ a t, exec (Instr.ofMessage m) s = .next t ∧ t.answers = s.answers ++ [⟨messageSender m, a⟩] ∧ t.link = s.link
      ∧ (a = .fault .malformed ↔ ¬ MessageOk m) ∧ a ≠ .again .restarting

/-- The first answer in answer order leaves, as the message of R171 and R173, and a NOTICE handed to the port leaves it, as the message of
R171 and R174, without a place in answer order (R68). That the NOTICE handed first leaves first is log 7, the record of what left log 8;
with nothing to send, nothing leaves (log 4). -/
def Obligations.MessagesLeaveThePort : Prop :=
  (∀ s : State,
    (s.answers = [] → exec (.messageLeavesPort .answer) s = .next s)
    ∧ ∀ (x : Reply) (rest : List Reply), s.answers = x :: rest →
        ∀ (kind : Byte) (body : List Byte),
          ((∃ d, x.answer = .data d ∧ kind = 0x81 ∧ body = d)
            ∨ (x.answer = .taken ∧ kind = 0x82 ∧ body = [])
            ∨ (x.answer = .again .pending ∧ kind = 0x83 ∧ body = [0x01])
            ∨ (x.answer = .again .busy ∧ kind = 0x83 ∧ body = [0x02])
            ∨ (x.answer = .again .restarting ∧ kind = 0x83 ∧ body = [0x03])
            ∨ (∃ code, x.answer = .fault code ∧ kind = 0x84 ∧ body = [faultByte code])
            ∨ (∃ block, x.answer = .managed block ∧ kind = 0x85 ∧ body = block)) →
          exec (.messageLeavesPort .answer) s
            = .next { s with
                answers := rest
                link := s.link ++ [[kind, byteOf x.requester.val, byteOf body.length, 0x00] ++ body] })
  ∧ ∀ s : State,
      (s.handed = [] → exec (.messageLeavesPort .notice) s = .next s)
      ∧ ∀ (x : NoticeMessage) (rest : List NoticeMessage), s.handed = x :: rest →
          ∀ (kind subject detailA detailB : Byte) (address : Nat),
            ((∃ n d cause, x.news = .writeLost n d cause ∧ kind = 0x01 ∧ subject = byteOf n.val ∧ detailA = lossByte cause
                ∧ detailB = 0x00 ∧ address = d)
              ∨ (∃ r slot k d, x.news = .completionDiscarded r slot k d ∧ kind = 0x02 ∧ subject = byteOf r.val
                ∧ detailA = byteOf slot.val ∧ detailB = entryKindByte k ∧ address = d)
              ∨ (∃ w g reason, x.news = .windowRetired w g reason ∧ kind = 0x03 ∧ subject = byteOf w.val ∧ detailA = g
                ∧ detailB = retireByte reason ∧ address = 0)
              ∨ (∃ n cause, x.news = .segmentFaulted n cause ∧ kind = 0x04 ∧ subject = byteOf n.val ∧ detailA = causeByte cause
                ∧ detailB = 0x00 ∧ address = 0)) →
            exec (.messageLeavesPort .notice) s
              = .next { s with
                  handed := rest
                  link := s.link ++
                    [[0x90, byteOf x.addressee.val, 11, 0x00, x.sequence, kind, subject, byteOf x.repeats,
                      if x.overrun then 0x01 else 0x00, detailA, detailB] ++ fieldOf 4 address] }

/-! ### READ and WRITE: the Pending Table -/

/-- A repeat that matches an entry in QUEUED or ISSUED is answered AGAIN PENDING and leaves everything as it was; one that matches a
COMPLETE entry receives its outcome, once: the entry is freed and its window's count falls (R75-R77). -/
def Obligations.RepeatsMeetTheirEntry : Prop :=
  (∀ (s : State) (a : Ask) (slot : Slot), Running s → AskOk a → SignaturesDistinct s → Matches s.entries[slot] a →
    (s.entries[slot].state = .queued ∨ s.entries[slot].state = .issued) →
    exec (arrival a) s = .next (s.answer a.requester (.again .pending)))
  ∧ ∀ (s : State) (a : Ask) (slot : Slot) (answer : Answer), Running s → AskOk a → SignaturesDistinct s →
      Matches s.entries[slot] a → s.entries[slot].state = .complete → Delivers s.entries[slot] answer →
      exec (arrival a) s
        = .next (((s.setEntry slot (emptied s.entries[slot])).lowerRoute s.entries[slot].route).answer a.requester answer)

/-- A new ask that passes decode to a pending entry: refused for want of a FREE slot or of quota, else created in the lowest FREE slot,
queued at the tail of its segment's queue and counted (R72, R74, R98). -/
def Obligations.DelayedWorkIsRecorded : Prop :=
  ∀ (s : State) (a : Ask) (x : Target), Running s → AskOk a → WindowTableOk s → IsNew s a → Passes s a x → x.posted = false →
    ((∀ slot : Slot, s.entries[slot].state ≠ .free) → exec (arrival a) s = .next (s.answer a.requester (.again .busy)))
    ∧ (s.settings.pendingQuota ≤ quotaHeld s a.requester →
        exec (arrival a) s = .next (s.answer a.requester (.again .busy)))
    ∧ ∀ slot : Slot, s.entries[slot].state = .free → (∀ v : Slot, v < slot → s.entries[v].state ≠ .free) →
        quotaHeld s a.requester < s.settings.pendingQuota →
        exec (arrival a) s
          = .next ((((s.setEntry slot
              { state := .queued, requester := a.requester, kind := a.kind, space := a.space, address := a.address,
                count := a.count, writeData := a.data, route := x.route, segment := x.segment, downstream := x.downstream,
                absentPolicy := x.absentPolicy, orphaned := false, outcome := none, readData := none, discard := none }).setEngine
              x.segment { s.engines[x.segment] with queue := s.engines[x.segment].queue ++ [.reference slot] }).raiseRoute
              x.route).answer a.requester (.again .pending))

/-! ### READ and WRITE: the Window Table and posted writes -/

/-- A new ask that hits a window is refused by the first check of R10, R11, R12 and R14 that fails, and leaves no record. -/
def Obligations.HitWindowChecksInOrder : Prop :=
  ∀ (s : State) (a : Ask) (w : WindowNumber) (code : FaultCode), Running s → AskOk a → WindowTableOk s → IsNew s a →
    Hits s a w → HitRefused s a w code → exec (arrival a) s = .next (s.answer a.requester (.fault code))

/-- A frozen window answers a new ask at once: FFh bytes, or TAKEN with the data discarded; nothing is recorded. -/
def Obligations.FrozenWindowAnswersItself : Prop :=
  ∀ (s : State) (a : Ask) (w : WindowNumber), Running s → AskOk a → WindowTableOk s → IsNew s a → Hits s a w →
    lastByte a ≤ s.windows[w].limit → s.windows[w].state = .opened → Admits s.windows[w] a.requester →
    s.windows[w].frozen = true →
    (a.kind = .read → exec (arrival a) s = .next (s.answer a.requester (.data (List.replicate a.count 0xFF))))
    ∧ (a.kind = .write → exec (arrival a) s = .next (s.answer a.requester .taken))

/-- A new ask that hits no window is refused by the first check of R17 that fails, and leaves no record. -/
def Obligations.DefaultRouteChecksInOrder : Prop :=
  ∀ (s : State) (a : Ask) (code : FaultCode), Running s → AskOk a → IsNew s a → Misses s a → MissRefused s a code →
    exec (arrival a) s = .next (s.answer a.requester (.fault code))

/-- A new WRITE that passes decode to a posted item: refused AGAIN BUSY where 8 posted items are held, else appended, counted and
answered TAKEN (R97). -/
def Obligations.PostedWritesAreAccepted : Prop :=
  ∀ (s : State) (a : Ask) (x : Target), Running s → AskOk a → WindowTableOk s → IsNew s a → Passes s a x → x.posted = true →
    (8 ≤ s.engines[x.segment].postedCount → exec (arrival a) s = .next (s.answer a.requester (.again .busy)))
    ∧ (s.engines[x.segment].postedCount < 8 →
        exec (arrival a) s
          = .next (((s.setEngine x.segment
              { s.engines[x.segment] with
                queue := s.engines[x.segment].queue ++
                  [.posted { route := x.route, downstream := x.downstream, count := a.count, data := a.data.getD [],
                             absentPolicy := x.absentPolicy }] }).raiseRoute x.route).answer a.requester .taken))

/-- What acceptance and the end of items do to the windows' counts (R20, R21, R44, R45, R88, R130). An item names a window at its present
generation: the count rises or falls by one, a CLOSING window with no item left retires, and nothing but that window and the notices
changes. Items that end at one claim lower each count by the items that name it, and the windows that retire raise their notices in
ascending order. -/
def Obligations.CountsFollowTheItems : Prop :=
  (∀ (s : State) (w : WindowNumber),
    s.raiseRoute .defaultRoute = s ∧ s.lowerRoute .defaultRoute = s
    ∧ s.raiseRoute (.window w s.windows[w].generation)
        = s.setWindow w { s.windows[w] with inFlight := s.windows[w].inFlight + 1 }
    ∧ s.lowerRoute (.window w s.windows[w].generation)
        = (s.setWindow w (lowered s.windows[w] 1)).setNotices (retiredNotice w s.windows[w] 1 s.notices)
    ∧ ∀ g : Byte, g ≠ s.windows[w].generation → s.raiseRoute (.window w g) = s ∧ s.lowerRoute (.window w g) = s)
  ∧ ∀ (s : State) (routes : List Route),
      let k := fun w : WindowNumber => routes.count (.window w s.windows[w].generation)
      (∀ w : WindowNumber, (s.lowerRoutes routes).windows[w] = if k w = 0 then s.windows[w] else lowered s.windows[w] (k w))
      ∧ (s.lowerRoutes routes).notices
          = (List.finRange 48).foldl (fun u w => if k w = 0 then u else retiredNotice w s.windows[w] (k w) u) s.notices
      ∧ ∃ windows notices, s.lowerRoutes routes = { s with windows, notices }

/-! ### The window commands -/

/-- OPEN that passes its checks installs the record under the next generation and answers it. -/
def Obligations.OpenInstallsTheRecord : Prop :=
  ∀ (s : State) (r : Requester) (o : OpenOperands) (w : WindowNumber), Manages s r → OpenEncodable o → OpenValid o →
    Chosen s o.window w → ¬ Overlaps s w o.space o.base o.limit →
    exec (manageAsk .openWindow r (openBlock o)) s
      = .next ((s.setWindow w
          { state := .opened, generation := s.windows[w].generation + 1, space := o.space, base := o.base, limit := o.limit,
            segment := o.segment, segmentBase := o.segmentBase, writePolicy := o.writePolicy, absentPolicy := o.absentPolicy,
            owners := o.owners, lease := if o.lease = 0 then none else some (Timer.start Config.leaseUnit o.lease),
            frozen := false, retireReason := s.windows[w].retireReason, inFlight := 0 }).answer r
          (.managed [byteOf w.val, s.windows[w].generation + 1]))

/-- OPEN is refused by its first failing check and changes nothing. -/
def Obligations.OpenRefusalsInOrder : Prop :=
  ∀ (s : State) (r : Requester) (o : OpenOperands) (code : FaultCode), Manages s r → OpenEncodable o →
    (¬ OpenValid o ∧ code = .badOperand
      ∨ OpenValid o ∧ (∃ w, o.window = some w ∧ s.windows[w].state ≠ .free) ∧ code = .inUse
      ∨ OpenValid o ∧ o.window = none ∧ (∀ w : WindowNumber, s.windows[w].state ≠ .free) ∧ code = .noFreeWindow
      ∨ OpenValid o ∧ (∃ w, Chosen s o.window w ∧ Overlaps s w o.space o.base o.limit) ∧ code = .overlap) →
    exec (manageAsk .openWindow r (openBlock o)) s = .next (s.answer r (.fault code))

/-- AMEND installs the merged record, or is refused by its first failing check. -/
def Obligations.AmendInstallsTheMergedRecord : Prop :=
  ∀ (s : State) (r : Requester) (o : AmendOperands), Manages s r → AmendEncodable o →
    (s.windows[o.window].state ≠ .opened →
      exec (manageAsk .amend r (amendBlock o)) s = .next (s.answer r (.fault .notOpen)))
    ∧ (s.windows[o.window].state = .opened → s.windows[o.window].frozen = true →
        exec (manageAsk .amend r (amendBlock o)) s = .next (s.answer r (.fault .frozen)))
    ∧ (s.windows[o.window].state = .opened → s.windows[o.window].frozen = false →
        (¬ WindowValid (amended o s.windows[o.window]) →
          exec (manageAsk .amend r (amendBlock o)) s = .next (s.answer r (.fault .badOperand)))
        ∧ (WindowValid (amended o s.windows[o.window]) →
            Overlaps s o.window s.windows[o.window].space (amended o s.windows[o.window]).base
              (amended o s.windows[o.window]).limit →
            exec (manageAsk .amend r (amendBlock o)) s = .next (s.answer r (.fault .overlap)))
        ∧ (WindowValid (amended o s.windows[o.window]) →
            ¬ Overlaps s o.window s.windows[o.window].space (amended o s.windows[o.window]).base
              (amended o s.windows[o.window]).limit →
            exec (manageAsk .amend r (amendBlock o)) s
              = .next ((s.setWindow o.window (amended o s.windows[o.window])).answer r
                  (.managed [byteOf o.window.val, s.windows[o.window].generation]))))

/-- RENEW sets or removes the lease of an OPEN window that is not frozen; it is refused NOT-OPEN or FROZEN otherwise (R32). -/
def Obligations.RenewSetsTheLease : Prop :=
  ∀ (s : State) (r : Requester) (w : WindowNumber) (n : Nat), Manages s r → n ≤ 65535 →
    (s.windows[w].state ≠ .opened →
      exec (manageAsk .renew r (byteOf w.val :: fieldOf 2 n)) s = .next (s.answer r (.fault .notOpen)))
    ∧ (s.windows[w].state = .opened → s.windows[w].frozen = true →
        exec (manageAsk .renew r (byteOf w.val :: fieldOf 2 n)) s = .next (s.answer r (.fault .frozen)))
    ∧ (s.windows[w].state = .opened → s.windows[w].frozen = false →
        exec (manageAsk .renew r (byteOf w.val :: fieldOf 2 n)) s
          = .next ((s.setWindow w
              { s.windows[w] with lease := if n = 0 then none else some (Timer.start Config.leaseUnit n) }).answer r
              (.managed [byteOf w.val, s.windows[w].generation])))

/-- FREEZE sets the frozen flag of an OPEN window and removes its lease; it is refused NOT-OPEN, or FROZEN on a frozen window (R36). -/
def Obligations.FreezeSetsTheFlag : Prop :=
  ∀ (s : State) (r : Requester) (w : WindowNumber), Manages s r →
    (s.windows[w].state ≠ .opened →
      exec (manageAsk .freeze r [byteOf w.val]) s = .next (s.answer r (.fault .notOpen)))
    ∧ (s.windows[w].state = .opened → s.windows[w].frozen = true →
        exec (manageAsk .freeze r [byteOf w.val]) s = .next (s.answer r (.fault .frozen)))
    ∧ (s.windows[w].state = .opened → s.windows[w].frozen = false →
        exec (manageAsk .freeze r [byteOf w.val]) s
          = .next ((s.setWindow w { s.windows[w] with frozen := true, lease := none }).answer r
              (.managed [byteOf w.val, s.windows[w].generation, byteOf s.windows[w].inFlight])))

/-- CLOSE without ABANDON: an OPEN window enters CLOSING and retires at the same claim where no item names it; a CLOSING one is left as it
is. CLOSE with ABANDON applies the abandonment to an OPEN or CLOSING window and answers the count and the state it leaves (R38-R40). -/
def Obligations.CloseStartsTheDrain : Prop :=
  (∀ (s : State) (r : Requester) (w : WindowNumber), Manages s r →
    (s.windows[w].state = .free →
      exec (manageAsk .close r [byteOf w.val, 0x00]) s = .next (s.answer r (.fault .notOpen)))
    ∧ (s.windows[w].state ≠ .free → s.windows[w].frozen = true →
        exec (manageAsk .close r [byteOf w.val, 0x00]) s = .next (s.answer r (.fault .frozen)))
    ∧ (s.windows[w].state = .closing → s.windows[w].frozen = false →
        exec (manageAsk .close r [byteOf w.val, 0x00]) s
          = .next (s.answer r (.managed [byteOf s.windows[w].inFlight, 0x02])))
    ∧ (s.windows[w].state = .opened → s.windows[w].frozen = false → s.windows[w].inFlight ≠ 0 →
        exec (manageAsk .close r [byteOf w.val, 0x00]) s
          = .next ((s.setWindow w { s.windows[w] with state := .closing, retireReason := .closed, lease := none }).answer r
              (.managed [byteOf s.windows[w].inFlight, 0x02])))
    ∧ (s.windows[w].state = .opened → s.windows[w].frozen = false → s.windows[w].inFlight = 0 →
        exec (manageAsk .close r [byteOf w.val, 0x00]) s
          = .next (((s.setWindow w { s.windows[w] with state := .free, retireReason := .closed, lease := none }).raise
              (.windowRetired w s.windows[w].generation .closed) 1).answer r (.managed [0x00, 0x00]))))
  ∧ ∀ (s : State) (r : Requester) (w : WindowNumber), Manages s r →
      (s.windows[w].state = .free →
        exec (manageAsk .closeWithAbandon r [byteOf w.val, 0x01]) s = .next (s.answer r (.fault .notOpen)))
      ∧ (s.windows[w].state ≠ .free → s.windows[w].frozen = true →
          exec (manageAsk .closeWithAbandon r [byteOf w.val, 0x01]) s = .next (s.answer r (.fault .frozen)))
      ∧ (s.windows[w].state ≠ .free → s.windows[w].frozen = false →
          exec (manageAsk .closeWithAbandon r [byteOf w.val, 0x01]) s
            = .next ((s.abandon w).answer r
                (.managed [byteOf (s.abandon w).windows[w].inFlight, windowStateByte (s.abandon w).windows[w].state])))

/-- What an abandonment does (R40–R42): the window's QUEUED entries become COMPLETE with ABANDONED, its queued posted items go, the lists
close up, WRITE-LOST is raised for each segment concerned, and the window is CLOSING with reason ABANDONED, or retired. -/
def Obligations.AbandonmentFinishesUnstartedWork : Prop :=
  ∀ (s : State) (w : WindowNumber),
    let route := Route.window w s.windows[w].generation
    let closed : Window := { s.windows[w] with state := .closing, retireReason := .abandoned, lease := none }
    let removed := (lostTo s route 0).length + (lostTo s route 1).length + (lostTo s route 2).length + (lostTo s route 3).length
    (∀ slot : Slot, (s.abandon w).entries[slot] =
      if s.entries[slot].state = .queued ∧ s.entries[slot].route = route then
        finished s.entries[slot] .abandoned none s.settings.discardInterval
      else s.entries[slot])
    ∧ (∀ n : SegmentNumber, (s.abandon w).engines[n] =
        { s.engines[n] with queue := s.engines[n].queue.filter fun i => !takenByAbandonment s route i })
    ∧ (s.abandon w).windows[w] = lowered closed removed
    ∧ (∀ v : WindowNumber, v ≠ w → (s.abandon w).windows[v] = s.windows[v])
    ∧ (s.abandon w).notices
        = retiredNotice w closed removed
            (([0, 1, 2, 3] : List SegmentNumber).foldl (fun u n => lostNotice n .abandoned (lostTo s route n) u) s.notices)
    ∧ ∃ windows entries engines notices, s.abandon w = { s with windows, entries, engines, notices }

/-- A lease that runs out closes its window with reason LEASE-EXPIRED, from its last millisecond on (R1, R34, R44); where it may not
expire, or the window has none, nothing changes (log 4). -/
def Obligations.LeaseExpiryClosesTheWindow : Prop :=
  ∀ (s : State) (w : WindowNumber),
    (¬ MayExpire s.windows[w].lease → exec (.leaseExpiry w) s = .next s)
    ∧ (MayExpire s.windows[w].lease → s.windows[w].inFlight ≠ 0 →
        exec (.leaseExpiry w) s
          = .next (s.setWindow w { s.windows[w] with state := .closing, retireReason := .leaseExpired, lease := none }))
    ∧ (MayExpire s.windows[w].lease → s.windows[w].inFlight = 0 →
        exec (.leaseExpiry w) s
          = .next ((s.setWindow w { s.windows[w] with state := .free, retireReason := .leaseExpired, lease := none }).raise
              (.windowRetired w s.windows[w].generation .leaseExpired) 1))

/-- QUERY and LOOKUP report and change nothing. That the present millisecond of a lease counts whole is log 3. -/
def Obligations.QueryAndLookupReport : Prop :=
  ∀ (s : State) (r : Requester), Manages s r →
    (∀ w : WindowNumber, s.windows[w].state = .free →
      exec (manageAsk .query r [byteOf w.val]) s = .next (s.answer r (.managed [0x00, s.windows[w].generation])))
    ∧ (∀ w : WindowNumber, s.windows[w].state ≠ .free → s.windows[w].owners.length ≤ 4 →
        exec (manageAsk .query r [byteOf w.val]) s
          = .next (s.answer r (.managed
              ([windowStateByte s.windows[w].state, s.windows[w].generation, spaceByte s.windows[w].space,
                byteOf s.windows[w].segment.val, writePolicyByte s.windows[w].writePolicy,
                absentPolicyByte s.windows[w].absentPolicy,
                byteOf ((if s.windows[w].frozen then 1 else 0) + (if s.windows[w].lease.isSome then 2 else 0)),
                if s.windows[w].state = .closing then retireByte s.windows[w].retireReason else 0x00,
                byteOf s.windows[w].owners.length]
              ++ ownerField s.windows[w].owners ++ [byteOf s.windows[w].inFlight]
              ++ fieldOf 2 ((s.windows[w].lease.map Timer.units).getD 0) ++ fieldOf 4 s.windows[w].base
              ++ fieldOf 4 s.windows[w].limit ++ fieldOf 4 s.windows[w].segmentBase))))
    ∧ ∀ (space : Space) (address : Nat), address ≤ 0xFFFFFFFF → (space = .io → address ≤ 0xFFFF) →
        (∀ w : WindowNumber, WindowTableOk s → s.windows[w].state ≠ .free → s.windows[w].space = space →
          s.windows[w].base ≤ address → address ≤ s.windows[w].limit →
          exec (manageAsk .lookup r (spaceByte space :: fieldOf 4 address)) s
            = .next (s.answer r (.managed [0x01, byteOf w.val, windowStateByte s.windows[w].state, s.windows[w].generation,
                if s.windows[w].frozen then 0x01 else 0x00])))
        ∧ ((∀ w : WindowNumber, ¬ (s.windows[w].state ≠ .free ∧ s.windows[w].space = space ∧ s.windows[w].base ≤ address
              ∧ address ≤ s.windows[w].limit)) →
            (∀ n : SegmentNumber, routeSetting s.settings space = some n → address ≤ addressMaximum space →
              exec (manageAsk .lookup r (spaceByte space :: fieldOf 4 address)) s
                = .next (s.answer r (.managed [0x02, byteOf n.val, 0x00, 0x00, 0x00])))
            ∧ (routeSetting s.settings space = none ∨ addressMaximum space < address →
              exec (manageAsk .lookup r (spaceByte space :: fieldOf 4 address)) s
                = .next (s.answer r (.managed [0x00, 0x00, 0x00, 0x00, 0x00]))))

/-- A frozen window keeps its mapping through every command but the fall of PWRGOOD (R7, R37): only its in-flight count may change. -/
def Obligations.FrozenWindowsAreKept : Prop :=
  ∀ (c : Instr) (s t : State) (w : WindowNumber), WindowOk s.windows[w] → s.windows[w].frozen = true → c ≠ .pwrgoodFall →
    exec c s = .next t → ∃ k, t.windows[w] = { s.windows[w] with inFlight := k }

/-! ### The pending commands -/

/-- PENDING-STATUS reports the slots as they stand and changes nothing. That the present unit of a discard timer counts whole is log 3. -/
def Obligations.PendingStatusReports : Prop :=
  ∀ (s : State) (r : Requester), Manages s r →
    exec (manageAsk .pendingStatus r [0xFF]) s
      = .next (s.answer r (.managed
          ((List.finRange 16).map (fun slot : Slot =>
            if s.entries[slot].state = .free then 0x00
            else byteOf ((entryStateByte s.entries[slot].state).toNat
              + (if s.entries[slot].state = .issued ∧ s.entries[slot].orphaned = true then 4 else 0)
              + 8 * s.entries[slot].requester.val))
          ++ [byteOf (Finset.univ.filter fun slot : Slot => s.entries[slot].state = .free).card])))
    ∧ ∀ slot : Slot,
        (s.entries[slot].state = .free →
          exec (manageAsk .pendingStatus r [byteOf slot.val]) s = .next (s.answer r (.managed [0x00])))
        ∧ (s.entries[slot].state ≠ .free →
            ∀ (window generation outcome time : Byte),
              (s.entries[slot].route = .defaultRoute ∧ window = 0xFF ∧ generation = 0x00
                ∨ ∃ w g, s.entries[slot].route = .window w g ∧ window = byteOf w.val ∧ generation = g) →
              (s.entries[slot].state ≠ .complete ∧ outcome = 0x00 ∧ time = 0x00
                ∨ ∃ o x, s.entries[slot].state = .complete ∧ s.entries[slot].outcome = some o
                  ∧ s.entries[slot].discard = some x ∧ outcome = outcomeByte o ∧ time = byteOf x.units) →
              exec (manageAsk .pendingStatus r [byteOf slot.val]) s
                = .next (s.answer r (.managed
                    ([entryStateByte s.entries[slot].state, byteOf s.entries[slot].requester.val,
                      entryKindByte s.entries[slot].kind, spaceByte s.entries[slot].space, byteOf s.entries[slot].count,
                      window, generation, byteOf s.entries[slot].segment.val,
                      absentPolicyByte s.entries[slot].absentPolicy,
                      if s.entries[slot].orphaned then 0x01 else 0x00, outcome, time]
                    ++ fieldOf 4 s.entries[slot].address ++ fieldOf 4 s.entries[slot].downstream))))

/-- CANCEL-REQUESTER: QUEUED and COMPLETE entries of the requester are freed, ISSUED ones orphaned, the references of the QUEUED ones
withdrawn, the counts of their windows lowered, and the three numbers answered (R88). -/
def Obligations.CancelFreesTheRequester : Prop :=
  ∀ (s : State) (r x : Requester), Manages s r →
    exec (manageAsk .cancelRequester r [byteOf x.val]) s
      = .next ((({ s with
          entries := Vector.ofFn fun slot : Slot =>
            if s.entries[slot].requester = x ∧ (s.entries[slot].state = .queued ∨ s.entries[slot].state = .complete) then
              emptied s.entries[slot]
            else if s.entries[slot].requester = x ∧ s.entries[slot].state = .issued then
              { s.entries[slot] with orphaned := true }
            else s.entries[slot]
          engines := Vector.ofFn fun n : SegmentNumber =>
            { s.engines[n] with
              queue := s.engines[n].queue.filter fun i =>
                match i with
                | .posted _ => true
                | .reference slot => !decide (s.entries[slot].requester = x ∧ s.entries[slot].state = .queued) } } : State).lowerRoutes
          (((List.finRange 16).filter fun slot : Slot =>
              decide (s.entries[slot].requester = x
                ∧ (s.entries[slot].state = .queued ∨ s.entries[slot].state = .complete))).map fun slot : Slot =>
            s.entries[slot].route)).answer r
          (.managed
            [byteOf (Finset.univ.filter fun slot : Slot =>
                s.entries[slot].requester = x ∧ s.entries[slot].state = .queued).card,
              byteOf (Finset.univ.filter fun slot : Slot =>
                s.entries[slot].requester = x ∧ s.entries[slot].state = .complete).card,
              byteOf (Finset.univ.filter fun slot : Slot =>
                s.entries[slot].requester = x ∧ s.entries[slot].state = .issued ∧ s.entries[slot].orphaned = false).card]))

/-- A discard timer that runs out, from its last unit on, frees its entry, raises COMPLETION-DISCARDED and then lowers the window's count
(R1, R85); where it may not expire, or is stopped, nothing changes (log 4). -/
def Obligations.DiscardExpiryFreesTheEntry : Prop :=
  ∀ (s : State) (slot : Slot),
    (¬ MayExpire s.entries[slot].discard → exec (.discardExpiry slot) s = .next s)
    ∧ (MayExpire s.entries[slot].discard →
        exec (.discardExpiry slot) s
          = .next (((s.setEntry slot (emptied s.entries[slot])).raise
              (.completionDiscarded s.entries[slot].requester slot s.entries[slot].kind s.entries[slot].address) 1).lowerRoute
              s.entries[slot].route))

/-! ### The segment engines -/

/-- An item at width 8 is one byte cycle for each byte, ascending, on the lower half. -/
def Obligations.WidthEightDivision : Prop :=
  ∀ j : Job, j.divide .eight
    = (List.range j.count).map fun k =>
        { space := j.space, kind := j.kind, address := j.downstream + k, lanes := .low, data := (j.data.drop k).take 1 }

/-- An item at width 16 is a byte cycle at an odd first byte, then words at even addresses, then a byte left over: as many cycles as R116
counts, over its bytes in ascending order, each on the lanes of its address. -/
def Obligations.WidthSixteenDivision : Prop :=
  ∀ j : Job, 1 ≤ j.count →
    let l := j.downstream % 2
    (j.divide .sixteen).length = l + (j.count - l) / 2 + (j.count - l) % 2
    ∧ (j.divide .sixteen).flatMap cycleAddresses = (List.range j.count).map (fun k => j.downstream + k)
    ∧ (∀ c ∈ j.divide .sixteen, c.space = j.space ∧ c.kind = j.kind
        ∧ (c.lanes = .high ↔ c.address % 2 = 1) ∧ (c.lanes ≠ .high → c.address % 2 = 0))
    ∧ (j.data.length = j.count →
        (j.divide .sixteen).flatMap Cycle.data = j.data
        ∧ ∀ c ∈ j.divide .sixteen, c.data.length = (cycleAddresses c).length)

/-- An engine that is ONLINE and IDLE takes the head of its list, divides it and starts its first cycle; the entry of a reference becomes
ISSUED. In every other state it takes nothing (R100, R113). What its segment's outputs show (R112, R116, R117, R179; log 13, log 18):
while PWRGOOD is low the reset line asserted, the strobes deasserted, address and data not driven; else the reset line of the engine's
state, and the current cycle, address and size in its address phase, strobe and data on its lanes in its data phase, active low. That a
cycle takes the next number is log 17. -/
def Obligations.EngineTakesTheHead : Prop :=
  (∀ (s : State) (n : SegmentNumber),
    (s.engines[n].state ≠ .online ∨ s.engines[n].inFlight ≠ none ∨ s.engines[n].queue = [] →
      exec (.takeHead n) s = .next s)
    ∧ ∀ (i : Item) (rest : List Item), s.engines[n].state = .online → s.engines[n].inFlight = none →
        s.engines[n].queue = i :: rest →
        ∀ (j : Job) (t : State),
          ((∃ p, i = .posted p ∧ t = s
              ∧ j = { space := .memory, kind := .write, downstream := p.downstream, count := p.count, data := p.data })
            ∨ ∃ slot, i = .reference slot ∧ t = s.setEntry slot { s.entries[slot] with state := .issued }
              ∧ j = { space := s.entries[slot].space, kind := s.entries[slot].kind, downstream := s.entries[slot].downstream,
                      count := s.entries[slot].count, data := s.entries[slot].writeData.getD [] }) →
          exec (.takeHead n) s
            = .next { t.setEngine n
                { s.engines[n] with
                  queue := rest
                  inFlight := some i
                  kept := []
                  current := (j.divide s.settings.segments[n].width).head?.map fun c =>
                    ⟨c, Timer.start Config.cycleUnit s.settings.segments[n].cycleTimeout, s.cyclesStarted⟩
                  remaining := (j.divide s.settings.segments[n].width).tail } with
                cyclesStarted := s.cyclesStarted + if j.divide s.settings.segments[n].width = [] then 0 else 1 })
  ∧ ∀ (s : State) (n : SegmentNumber) (phase : CyclePhase),
      let p := s.segmentPins n phase
      (s.power = .off →
        p.rst = .low ∧ p.rd = .high ∧ p.wr = .high ∧ p.addr = .floating ∧ p.dataLow = .floating ∧ p.dataHigh = .floating)
      ∧ (s.power ≠ .off →
          (p.rst = .low ↔ s.engines[n].state = .offline ∨ s.engines[n].state = .resetting)
          ∧ (∃ v, p.addr = .driven v) ∧ (∃ v, p.ioSel = .driven v)
          ∧ (s.engines[n].current = none → p.rd = .high ∧ p.wr = .high)
          ∧ ∀ x : RunningCycle, s.engines[n].current = some x →
              (phase = .address →
                p.rd = .high ∧ p.wr = .high
                ∧ (x.cycle.space = .memory → p.addr = .driven (some (BitVec.ofNat 24 x.cycle.address))
                    ∧ p.ioSel = .driven (some .high))
                ∧ (x.cycle.space = .io → p.addr = .driven (some (BitVec.ofNat 24 (x.cycle.address % 0x10000)))
                    ∧ p.ioSel = .driven (some .low))
                ∧ p.dataLow = .driven (some (if x.cycle.lanes = .both then 0x01 else 0x00))
                ∧ p.dataHigh = .driven (some 0x00))
              ∧ (phase = .data →
                  (p.rd = .low ↔ x.cycle.kind = .read) ∧ (p.wr = .low ↔ x.cycle.kind = .write)
                  ∧ (x.cycle.kind = .read →
                      (x.cycle.lanes ≠ .high → p.dataLow = .floating) ∧ (x.cycle.lanes ≠ .low → p.dataHigh = .floating))
                  ∧ (x.cycle.kind = .write →
                      (x.cycle.lanes ≠ .high → p.dataLow = .driven x.cycle.data[0]?)
                      ∧ (x.cycle.lanes = .high → p.dataHigh = .driven x.cycle.data[0]?)
                      ∧ (x.cycle.lanes = .both → p.dataHigh = .driven x.cycle.data[1]?))))

/-- The result of an item is handed back (R80, R89, R104–R106): an entry completes, an orphan is freed, and a posted item raises WRITE-LOST
for a target error, or for no response under the policy FAULT, before its window's count falls. -/
def Obligations.ResultsAreHandedBack : Prop :=
  ∀ (s : State) (n : SegmentNumber) (result : ItemResult) (kept : List Byte),
    (∀ slot : Slot, s.entries[slot].orphaned = true →
      s.handBack n (.reference slot) result kept
        = (s.setEntry slot (emptied s.entries[slot])).lowerRoute s.entries[slot].route)
    ∧ (∀ slot : Slot, s.entries[slot].orphaned = false →
        s.handBack n (.reference slot) result kept
          = s.setEntry slot (finished s.entries[slot]
              (match result with
                | .ok => .ok
                | .noResponse => .noResponse
                | .targetError => .targetError)
              (if s.entries[slot].kind = .read ∧ result = .ok then some kept else none) s.settings.discardInterval))
    ∧ ∀ p : PostedItem,
        ((result = .ok ∨ result = .noResponse ∧ p.absentPolicy = .ones) →
          s.handBack n (.posted p) result kept = s.lowerRoute p.route)
        ∧ (result = .noResponse → p.absentPolicy = .fault →
            s.handBack n (.posted p) result kept = (s.raise (.writeLost n p.downstream .noResponse) 1).lowerRoute p.route)
        ∧ (result = .targetError →
            s.handBack n (.posted p) result kept = (s.raise (.writeLost n p.downstream .targetError) 1).lowerRoute p.route)

/-- The acknowledgement of the current cycle starts the next one at the same claim, or ends the item with OK; the no-response count becomes
0. The acknowledgement of any other cycle, ended (R118) or stopped (R130, R134), is disregarded, whether a cycle is current or none is
(R179). How a signal names its cycle is log 17. -/
def Obligations.AcknowledgedCycles : Prop :=
  ∀ (s : State) (n : SegmentNumber) (k : Nat) (data : BitVec 16),
    ((∀ x, s.engines[n].current = some x → x.number ≠ k) → exec (.cycleAcknowledged ⟨n, k⟩ data) s = .next s)
    ∧ ∀ x : RunningCycle, s.engines[n].current = some x → x.number = k →
        (∀ (c : Cycle) (cs : List Cycle), s.engines[n].remaining = c :: cs →
          exec (.cycleAcknowledged ⟨n, k⟩ data) s
            = .next { s.setEngine n
                { s.engines[n] with
                  current := some ⟨c, Timer.start Config.cycleUnit s.settings.segments[n].cycleTimeout, s.cyclesStarted⟩
                  remaining := cs
                  kept := s.engines[n].kept ++ returned x.cycle data
                  noResponses := 0 } with
                cyclesStarted := s.cyclesStarted + 1 })
        ∧ ∀ i : Item, s.engines[n].remaining = [] → s.engines[n].inFlight = some i →
            exec (.cycleAcknowledged ⟨n, k⟩ data) s
              = .next ((s.setEngine n { idled s.engines[n] with noResponses := 0 }).handBack n i .ok
                  (s.engines[n].kept ++ returned x.cycle data))

/-- A cycle that ends NO-RESPONSE ends its item, raises the count and faults the engine at the limit; one that ends TARGET-ERROR ends its
item, clears the count and faults the engine where SEGn-HALT-ON-ERROR is YES (R118, R120, R121, R123, R124). An error for any
other cycle than the current one, ended (R118) or stopped (R130, R134), is disregarded, whether a cycle is current or none is (R179); how
it names its cycle is log 17. The timer ends a cycle in its last microsecond only (R1); where it may not expire, or no cycle runs, its
expiry changes nothing (log 4). -/
def Obligations.FailingCyclesEndTheItem : Prop :=
  (∀ (s : State) (n : SegmentNumber),
    (¬ MayExpire (s.engines[n].current.map RunningCycle.timer) → exec (.cycleTimeout n) s = .next s)
    ∧ ∀ (x : RunningCycle) (i : Item) (t : State), s.engines[n].current = some x → x.timer.units ≤ 1 →
        s.engines[n].inFlight = some i →
        t = (s.setEngine n (idled s.engines[n])).handBack n i .noResponse s.engines[n].kept →
        (s.engines[n].noResponses + 1 < s.settings.segments[n].noResponseLimit →
          exec (.cycleTimeout n) s
            = .next (t.setEngine n { idled s.engines[n] with noResponses := s.engines[n].noResponses + 1 }))
        ∧ (s.settings.segments[n].noResponseLimit ≤ s.engines[n].noResponses + 1 →
            exec (.cycleTimeout n) s
              = .next ((t.setEngine n
                  { idled s.engines[n] with
                    noResponses := s.engines[n].noResponses + 1
                    state := .faulted
                    faultCause := .noResponseLimit }).raise (.segmentFaulted n .noResponseLimit) 1)))
  ∧ ∀ (s : State) (n : SegmentNumber) (k : Nat),
      ((∀ x, s.engines[n].current = some x → x.number ≠ k) → exec (.targetError ⟨n, k⟩) s = .next s)
      ∧ ∀ (x : RunningCycle) (i : Item) (t : State), s.engines[n].current = some x → x.number = k →
          s.engines[n].inFlight = some i →
          t = (s.setEngine n (idled s.engines[n])).handBack n i .targetError s.engines[n].kept →
          (s.settings.segments[n].haltOnError = false →
            exec (.targetError ⟨n, k⟩) s = .next (t.setEngine n { idled s.engines[n] with noResponses := 0 }))
          ∧ (s.settings.segments[n].haltOnError = true →
              exec (.targetError ⟨n, k⟩) s
                = .next ((t.setEngine n
                    { idled s.engines[n] with noResponses := 0, state := .faulted, faultCause := .targetError }).raise
                    (.segmentFaulted n .targetError) 1))

/-- BRING-ONLINE, TAKE-OFFLINE, RESUME and RESET-SEGMENT: the states each accepts, what each sets and answers, and the code each is
refused with (R126-R130). -/
def Obligations.SegmentCommandsAnswer : Prop :=
  (∀ (s : State) (r : Requester) (n : SegmentNumber), Manages s r →
    (s.engines[n].state = .offline →
      exec (manageAsk .bringOnline r [byteOf n.val]) s
        = .next ((s.setEngine n { s.engines[n] with state := .online }).answer r (.managed [0x01])))
    ∧ (s.engines[n].state ≠ .offline →
        exec (manageAsk .bringOnline r [byteOf n.val]) s = .next (s.answer r (.fault .wrongState)))
    ∧ (s.engines[n].state = .offline ∨ s.engines[n].state = .resetting →
        exec (manageAsk .takeOffline r [byteOf n.val]) s = .next (s.answer r (.fault .wrongState)))
    ∧ (s.engines[n].state = .online ∨ s.engines[n].state = .faulted →
        (s.engines[n].inFlight ≠ none ∨ s.engines[n].queue ≠ [] →
          exec (manageAsk .takeOffline r [byteOf n.val]) s = .next (s.answer r (.fault .busy)))
        ∧ (s.engines[n].inFlight = none → s.engines[n].queue = [] →
            exec (manageAsk .takeOffline r [byteOf n.val]) s
              = .next ((s.setEngine n { s.engines[n] with state := .offline, noResponses := 0, faultCause := .none }).answer r
                  (.managed [0x00]))))
    ∧ (s.engines[n].state = .faulted →
        exec (manageAsk .resume r [byteOf n.val]) s
          = .next ((s.setEngine n { s.engines[n] with state := .online, noResponses := 0, faultCause := .none }).answer r
              (.managed [0x01])))
    ∧ (s.engines[n].state ≠ .faulted →
        exec (manageAsk .resume r [byteOf n.val]) s = .next (s.answer r (.fault .wrongState))))
  ∧ ∀ (s : State) (r : Requester) (n : SegmentNumber), Manages s r →
      (s.engines[n].state = .resetting →
        exec (manageAsk .resetSegment r [byteOf n.val]) s = .next (s.answer r (.fault .busy)))
      ∧ (s.engines[n].state ≠ .resetting →
          exec (manageAsk .resetSegment r [byteOf n.val]) s
            = .next ((s.resetSegment n).answer r
                (.managed
                  [0x03, if s.engines[n].state = .offline then 0x00 else 0x01,
                    byteOf ((referencedSlots s.engines[n].items).countP fun slot => !s.entries[slot].orphaned),
                    byteOf s.engines[n].postedCount])))

/-- What RESET-SEGMENT does (R129, R130): the entries it holds become COMPLETE with SEGMENT-RESET, an orphan FREE, the posted items are
lost with one WRITE-LOST, the counts of their windows fall, and the engine is RESETTING with an empty queue and its pulse running. -/
def Obligations.ResetSegmentFinishesTheWork : Prop :=
  ∀ (s : State) (n : SegmentNumber), ReferencesOk s →
    ∃ t : State,
      (∀ slot : Slot, t.entries[slot] =
        if slot ∈ referencedSlots s.engines[n].items then
          if s.entries[slot].orphaned = true then emptied s.entries[slot]
          else finished s.entries[slot] .segmentReset none s.settings.discardInterval
        else s.entries[slot])
      ∧ (∀ m : SegmentNumber, t.engines[m] =
          if m = n then
            { state := .resetting, returnState := if s.engines[n].state = .offline then .offline else .online, queue := [],
              inFlight := none, current := none, remaining := [], kept := [], noResponses := 0, faultCause := .none,
              resetPulse := some (Timer.start Config.pulseUnit s.settings.segments[n].resetPulse) }
          else s.engines[m])
      ∧ t = { s with
                entries := t.entries
                engines := t.engines
                notices := lostNotice n .segmentReset (postedItems s.engines[n].items) s.notices }
      ∧ s.resetSegment n
          = t.lowerRoutes ((postedItems s.engines[n].items).map PostedItem.route
              ++ ((referencedSlots s.engines[n].items).filter fun slot => s.entries[slot].orphaned).map fun slot =>
                s.entries[slot].route)

/-- A reset pulse that runs out, in its last microsecond only, gives the engine its return state (R1, R132), and the port returns to RUNNING
with the last pulse of a warm reset or the release of WARM_N, whichever is later (R50). Where the pulse may not expire, or none runs,
nothing changes, and a release of WARM_N while it is released is one as any other (log 4). -/
def Obligations.TheEndOfARestart : Prop :=
  (∀ (s : State) (n : SegmentNumber),
    (¬ MayExpire s.engines[n].resetPulse → exec (.resetPulseExpiry n) s = .next s)
    ∧ (MayExpire s.engines[n].resetPulse →
        ∀ t : State,
          t = s.setEngine n
            { s.engines[n] with
              state := match s.engines[n].returnState with
                | .online => .online
                | .offline => .offline
              resetPulse := none } →
          exec (.resetPulseExpiry n) s
            = .next
                (if s.port = .restarting ∧ s.warmN = false ∧ ∀ m : SegmentNumber, t.engines[m].state ≠ .resetting then
                  { t with port := .running }
                else t)))
  ∧ ∀ s : State, exec .warmNRelease s
      = .next
          (if s.port = .restarting ∧ ∀ n : SegmentNumber, s.engines[n].state ≠ .resetting then
            { s with warmN := false, port := .running }
          else { s with warmN := false })

/-! ### Notices -/

/-- A raise (R139, R140): coalesced into the first notice of its kind and subject that is not in flight; else appended where there is
room; else lost, with the overrun flag set. -/
def Obligations.RaisesCoalesceAppendOrOverrun : Prop :=
  ∀ (u : NoticeUnit) (news : News) (n : Nat), 1 ≤ n → n ≤ 8 →
    let flying := if u.delivery = .awaitAck then 1 else 0
    (∀ (before after : List Notice) (x : Notice), u.queue = before ++ x :: after → flying ≤ before.length →
      (∀ y ∈ before.drop flying, y.news.key ≠ news.key) → x.news.key = news.key →
      u.raise news n = { u with queue := before ++ { x with repeats := min 255 (x.repeats + n) } :: after })
    ∧ ((∀ y ∈ u.queue.drop flying, y.news.key ≠ news.key) →
        (u.queue.length < 16 → u.raise news n = { u with queue := u.queue ++ [⟨news, n, none⟩] })
        ∧ (16 ≤ u.queue.length → u.raise news n = { u with overrun := true }))

/-- The send of the head (R143): its sequence, the attempt, the timer, the overrun carried and the message, in AWAIT-ACK. With no target,
delivery out of IDLE or an empty queue nothing is sent (R68). -/
def Obligations.TheHeadIsSent : Prop :=
  ∀ s : State,
    (s.settings.noticeTarget = none ∨ s.notices.delivery ≠ .idle ∨ s.notices.queue = [] → exec .noticeSend s = .next s)
    ∧ ∀ (target : Requester) (x : Notice) (rest : List Notice), s.settings.noticeTarget = some target →
        s.notices.delivery = .idle → s.notices.queue = x :: rest →
        ∀ (sequence next : Byte),
          (x.sequence = none ∧ sequence = s.notices.nextSequence ∧ next = s.notices.nextSequence + 1
            ∨ x.sequence = some sequence ∧ next = s.notices.nextSequence) →
          exec .noticeSend s
            = .next { s with
                notices :=
                  { queue := { x with sequence := some sequence } :: rest, delivery := .awaitAck, nextSequence := next,
                    attempts := s.notices.attempts + 1,
                    ackTimer := some (Timer.start Config.ackUnit s.settings.noticeAckTimeout),
                    overrun := s.notices.overrun, overrunCarried := s.notices.overrun }
                handed := s.handed ++
                  [{ addressee := target, sequence, news := x.news, repeats := x.repeats, overrun := s.notices.overrun }] }

/-- A NOTICE-ACK (R144): refused to all but the target; accepted in AWAIT-ACK with the head's sequence; else TAKEN without effect. -/
def Obligations.AcknowledgementsOfNotices : Prop :=
  ∀ (s : State) (r : Requester) (q : Byte), Running s →
    (s.settings.noticeTarget ≠ some r →
      exec (.noticeAck (header r 1) [q]) s = .next (s.answer r (.fault .notPermitted)))
    ∧ (s.settings.noticeTarget = some r →
        ((s.notices.delivery ≠ .awaitAck ∨ ∀ x ∈ s.notices.queue.head?, x.sequence ≠ some q) →
          exec (.noticeAck (header r 1) [q]) s = .next (s.answer r .taken))
        ∧ ∀ (x : Notice) (rest : List Notice), s.notices.delivery = .awaitAck → s.notices.queue = x :: rest →
            x.sequence = some q →
            exec (.noticeAck (header r 1) [q]) s
              = .next ((s.setNotices
                  { s.notices with
                    queue := rest
                    ackTimer := none
                    attempts := 0
                    overrun := if s.notices.overrunCarried then false else s.notices.overrun
                    delivery := .idle }).answer r .taken))

/-- The ack timer runs out, from its last unit on (R1, R141, R145): the head leaves flight with the merge, and delivery is IDLE, or STALLED
after the third attempt. Where the timer may not expire, or is stopped, nothing changes (log 4). -/
def Obligations.AckTimerRunsOut : Prop :=
  ∀ s : State,
    (¬ MayExpire s.notices.ackTimer → exec .ackTimerExpiry s = .next s)
    ∧ (MayExpire s.notices.ackTimer → ∀ merged : List Notice, MergesTo s.notices.queue merged →
        exec .ackTimerExpiry s
          = .next (s.setNotices
              { s.notices with
                queue := merged
                ackTimer := none
                delivery := if s.notices.attempts < 3 then .idle else .stalled }))

/-- A write of NOTICE-TARGET (R150, R164): the setting changes and delivery follows the table of R150, by its state. -/
def Obligations.NoticeTargetWrites : Prop :=
  ∀ (s : State) (r : Requester) (target : Option Requester) (merged : List Notice) (u : NoticeUnit), Manages s r →
    MergesTo s.notices.queue merged →
    (s.notices.delivery = .disabled ∧ target = none ∧ u = s.notices
      ∨ s.notices.delivery = .disabled ∧ target ≠ none ∧ u = { s.notices with delivery := .idle, attempts := 0 }
      ∨ (s.notices.delivery = .idle ∨ s.notices.delivery = .stalled) ∧ target = none
        ∧ u = { s.notices with delivery := .disabled, attempts := 0 }
      ∨ (s.notices.delivery = .idle ∨ s.notices.delivery = .stalled) ∧ target ≠ none
        ∧ u = { s.notices with delivery := .idle, attempts := 0 }
      ∨ s.notices.delivery = .awaitAck ∧ target = none
        ∧ u = { s.notices with queue := merged, ackTimer := none, delivery := .disabled, attempts := 0 }
      ∨ s.notices.delivery = .awaitAck ∧ target ≠ none
        ∧ u = { s.notices with queue := merged, ackTimer := none, delivery := .idle, attempts := 0 }) →
    exec (settingAsk .noticeTarget r (0x00 :: fieldOf 4 ((target.map Fin.val).getD 0xFFFFFFFF))) s
      = .next (({ s with settings := { s.settings with noticeTarget := target }, notices := u } : State).answer r
          (.managed ([0x07, 0x00] ++ fieldOf 4 ((s.settings.noticeTarget.map Fin.val).getD 0xFFFFFFFF)
            ++ fieldOf 4 ((target.map Fin.val).getD 0xFFFFFFFF))))

/-- RESUME-NOTICES restarts a stalled delivery and is refused otherwise (R149); NOTICE-STATUS and SEGMENT-STATUS report and change nothing
(R133, R151). -/
def Obligations.NoticeCommandsAndSegmentStatus : Prop :=
  ∀ (s : State) (r : Requester), Manages s r →
    (s.notices.delivery = .stalled →
      exec (manageAsk .resumeNotices r []) s
        = .next ((s.setNotices { s.notices with attempts := 0, delivery := .idle }).answer r (.managed [0x01])))
    ∧ (s.notices.delivery ≠ .stalled →
        exec (manageAsk .resumeNotices r []) s = .next (s.answer r (.fault .wrongState)))
    ∧ (∀ head : Option Byte, head = s.notices.queue.head?.bind Notice.sequence →
        exec (manageAsk .noticeStatus r []) s
          = .next (s.answer r (.managed
              [deliveryByte s.notices.delivery, byteOf s.notices.queue.length, head.getD 0x00,
                byteOf ((if head.isSome then 1 else 0) + (if s.notices.overrun then 2 else 0)), byteOf s.notices.attempts])))
    ∧ ∀ n : SegmentNumber,
        exec (manageAsk .segmentStatus r [byteOf n.val]) s
          = .next (s.answer r (.managed
              [engineByte s.engines[n].state,
                if s.engines[n].state = .resetting then (if s.engines[n].returnState = .online then 0x01 else 0x00) else 0xFF,
                if s.engines[n].inFlight = none then 0x00 else 0x01,
                byteOf ((postedItems s.engines[n].queue).length
                  + if s.engines[n].inFlight.any Item.isPosted then 1 else 0),
                byteOf s.engines[n].queue.length, byteOf s.engines[n].noResponses, causeByte s.engines[n].faultCause]))

/-! ### The Management Unit -/

/-- A well-formed MANAGE ask from outside MANAGEMENT-SET is answered NOT-PERMITTED, whatever its command, and an unknown code from a
member UNKNOWN-COMMAND; neither changes anything else. -/
def Obligations.PermissionAndUnknownCodes : Prop :=
  ∀ (s : State) (r : Requester) (code : Byte) (block : List Byte), Running s → block.length ≤ 24 →
    (s.settings.managementSet.getLsbD r.val = false →
      exec (ofCommandCode (header r (block.length + 1)) code block) s = .next (s.answer r (.fault .notPermitted)))
    ∧ (s.settings.managementSet.getLsbD r.val = true → code ∉ operandLengths.map Prod.fst →
        exec (.unknownCommand (header r (block.length + 1)) (code :: block)) s = .next (s.answer r (.fault .unknownCommand)))

/-- The checks of R175 on a block's length and its window number, for every command. -/
def Obligations.OperandBlocksOfTheWrongShape : Prop :=
  ∀ (s : State) (r : Requester) (code : Byte) (length : Nat) (windowed : Bool) (block : List Byte), Manages s r →
    (code, length, windowed) ∈ operandLengths → block.length ≤ 24 →
    (windowed = true → block ≠ [] → ¬ WindowByteOk code block →
      exec (ofCommandCode (header r (block.length + 1)) code block) s = .next (s.answer r (.fault .badWindow)))
    ∧ (block.length ≠ length → (windowed = true → block = [] ∨ WindowByteOk code block) →
        exec (ofCommandCode (header r (block.length + 1)) code block) s = .next (s.answer r (.fault .badOperand)))

/-- A block of the right length and window number that is no encoding of operands is refused BAD-OPERAND: a field outside its encodings,
a bit or byte that the layout marks as zero and that is not, no setting's code and segment, or no target (R175-R178). -/
def Obligations.OperandFieldsOutsideTheirEncodings : Prop :=
  (∀ (s : State) (r : Requester) (block : List Byte), Manages s r →
    (block.length = 24 → WindowByteOk 0x10 block → (∀ o, OpenEncodable o → block ≠ openBlock o) →
      exec (manageAsk .openWindow r block) s = .next (s.answer r (.fault .badOperand)))
    ∧ (block.length = 22 → WindowByteOk 0x11 block → (∀ o, AmendEncodable o → block ≠ amendBlock o) →
        exec (manageAsk .amend r block) s = .next (s.answer r (.fault .badOperand)))
    ∧ (∀ (w : WindowNumber) (b : Byte), 2 ≤ b.toNat →
        exec (manageAsk .close r [byteOf w.val, b]) s = .next (s.answer r (.fault .badOperand))
        ∧ exec (manageAsk .closeWithAbandon r [byteOf w.val, b]) s = .next (s.answer r (.fault .badOperand)))
    ∧ (∀ (b : Byte) (address : Nat), address ≤ 0xFFFFFFFF → (2 ≤ b.toNat ∨ b = 0x01 ∧ 0x10000 ≤ address) →
        exec (manageAsk .lookup r (b :: fieldOf 4 address)) s = .next (s.answer r (.fault .badOperand)))
    ∧ (∀ b : Byte, 4 ≤ b.toNat →
        exec (manageAsk .bringOnline r [b]) s = .next (s.answer r (.fault .badOperand))
        ∧ exec (manageAsk .takeOffline r [b]) s = .next (s.answer r (.fault .badOperand))
        ∧ exec (manageAsk .resume r [b]) s = .next (s.answer r (.fault .badOperand))
        ∧ exec (manageAsk .resetSegment r [b]) s = .next (s.answer r (.fault .badOperand))
        ∧ exec (manageAsk .segmentStatus r [b]) s = .next (s.answer r (.fault .badOperand)))
    ∧ (∀ b : Byte, 16 ≤ b.toNat → b ≠ 0xFF →
        exec (manageAsk .pendingStatus r [b]) s = .next (s.answer r (.fault .badOperand)))
    ∧ ∀ b : Byte, 32 ≤ b.toNat →
        exec (manageAsk .cancelRequester r [b]) s = .next (s.answer r (.fault .badOperand)))
  ∧ ∀ (s : State) (r : Requester) (code segment : Byte) (value : Nat), Manages s r → value ≤ 0xFFFFFFFF →
      ((∀ name, settingCode name ≠ (code, segment)) ∨ code = 0x07 ∧ segment = 0x00 ∧ 32 ≤ value ∧ value ≠ 0xFFFFFFFF) →
      exec (ofCommandCode (header r 7) 0x51 ([code, segment] ++ fieldOf 4 value)) s = .next (s.answer r (.fault .badOperand))

/-- READ-SETTING gives the value of a setting, in the encoding of R178, and IDENTIFY the identification; neither changes anything. -/
def Obligations.ReadSettingAndIdentify : Prop :=
  ∀ (s : State) (r : Requester), Manages s r →
    (∀ name : SettingName,
      exec (manageAsk .readSetting r [(settingCode name).1, (settingCode name).2]) s
        = .next (s.answer r (.managed
            ([(settingCode name).1, (settingCode name).2] ++ fieldOf 4 (settingValue s.settings name)))))
    ∧ (∀ code segment : Byte, (∀ name, settingCode name ≠ (code, segment)) →
        exec (manageAsk .readSetting r [code, segment]) s = .next (s.answer r (.fault .badOperand)))
    ∧ exec (manageAsk .identify r []) s
        = .next (s.answer r (.managed [0x6F, 0x5A, 0x44, 0x0B, 0x02, 48, 16, 4, 32, 16, 8, 16]))

/-- A write of a setting other than NOTICE-TARGET (R161–R163): refused out of range, or BUSY for the width of a segment that is not
OFFLINE; else that setting alone takes the value, and the previous and the new value are answered, in the encodings of R178. The rows are
WRITE_SETTING, SEGN_WIDTH and MANAGEMENT_SET, by the setting code. -/
def Obligations.WriteSettingChangesOneValue : Prop :=
  ∀ (s : State) (r : Requester) (name : SettingName) (value : Nat), Manages s r → name ≠ .noticeTarget → value ≤ 0xFFFFFFFF →
    let ask := ofCommandCode (header r 7) 0x51 ([(settingCode name).1, (settingCode name).2] ++ fieldOf 4 value)
    (¬ admits name value → exec ask s = .next (s.answer r (.fault .badOperand)))
    ∧ (admits name value → WidthBusy s name → exec ask s = .next (s.answer r (.fault .busy)))
    ∧ (admits name value → ¬ WidthBusy s name →
        ∃ settings : Settings,
          exec ask s
            = .next (({ s with settings := settings } : State).answer r
                (.managed ([(settingCode name).1, (settingCode name).2] ++ fieldOf 4 (settingValue s.settings name) ++ fieldOf 4 value)))
          ∧ settingValue settings name = value
          ∧ ∀ other, other ≠ name → settingValue settings other = settingValue s.settings other)

/-- A refused command changes no state: a MANAGE message answered FAULT, or AGAIN, leaves nothing but its answer. -/
def Obligations.RefusedCommandsChangeNothing : Prop :=
  ∀ (m : List Byte) (s t : State) (r : Requester) (a : Answer), m.head? = some 0x03 → exec (Instr.ofMessage m) s = .next t →
    t.answers = s.answers ++ [⟨r, a⟩] → (∀ block, a ≠ .managed block) → t = s.answer r a

/-! ### Resets -/

/-- The warm reset in every block at once (R23, R49, R68, R94, R134, R153, R166, R168), by WARM_N, by WARM-RESET, and at the end of a cold
reset that finds WARM_N asserted. That an assertion of WARM_N while it is asserted is a new warm reset is log 5. -/
def Obligations.WarmResetReachesEveryBlock : Prop :=
  ∀ s : State,
    (s.warmReset.port = .restarting ∧ s.warmReset.answers = s.answers ∧ s.warmReset.handed = [] ∧ s.warmReset.link = s.link
      ∧ s.warmReset.power = s.power ∧ s.warmReset.warmN = s.warmN ∧ s.warmReset.pending = s.pending
      ∧ s.warmReset.cyclesStarted = s.cyclesStarted
      ∧ (∀ w : WindowNumber, s.warmReset.windows[w] =
          { s.windows[w] with
            state := if s.windows[w].frozen then s.windows[w].state else .free, lease := none, inFlight := 0 })
      ∧ (∀ slot : Slot, s.warmReset.entries[slot] = emptied s.entries[slot])
      ∧ (∀ n : SegmentNumber, s.warmReset.engines[n] =
          { state := .resetting, returnState := .offline, queue := [], inFlight := none, current := none, remaining := [],
            kept := [], noResponses := 0, faultCause := .none, resetPulse := some (Timer.start Config.pulseUnit 20) })
      ∧ s.warmReset.notices = State.reset.notices ∧ s.warmReset.settings = State.reset.settings)
    ∧ (s.power = .on → exec .warmNAssert s = .next { s.warmReset with warmN := true })
    ∧ (s.power ≠ .on → exec .warmNAssert s = .next { s with warmN := true })
    ∧ (∀ r : Requester, Manages s r → exec (manageAsk .warmReset r []) s = .next (s.warmReset.answer r (.managed [])))
    ∧ ∀ x : Timer, s.power = .counting x → x.units ≤ 1 → s.warmN = true →
        exec .coldResetEnd s = .next (({ s with power := .on, port := .running } : State).warmReset)

/-- The cold reset (R22, R51, R93, R135, R152, R169): from the fall of PWRGOOD every block holds its cold values and nothing is left to
send (from the fall on is the model's choice where R51 says at the end, log 7); the rise starts the count of 1 ms and its end makes the
port RUNNING. The count as 1000 units of 1 µs is log 2; a rise while PWRGOOD is high, and an end while no count runs or more than its
last unit is left, change nothing (log 4). -/
def Obligations.ColdResetClearsThePart : Prop :=
  ∀ s : State,
    exec .pwrgoodFall s
      = .next { State.reset with
          power := .off, warmN := s.warmN, link := s.link, cyclesStarted := s.cyclesStarted, pending := s.pending }
    ∧ (s.power = .off → exec .pwrgoodRise s = .next { s with power := .counting (Timer.start 1 1000) })
    ∧ (s.power ≠ .off → exec .pwrgoodRise s = .next s)
    ∧ (∀ x : Timer, s.power = .counting x → x.units ≤ 1 → s.warmN = false →
        exec .coldResetEnd s = .next { s with power := .on, port := .running })
    ∧ (∀ x : Timer, s.power = .counting x → 1 < x.units → exec .coldResetEnd s = .next s)
    ∧ (s.power = .off ∨ s.power = .on → exec .coldResetEnd s = .next s)

/-! ### Invariants -/

/-- Every invariant holds right after a cold reset. -/
def Obligations.InvariantsHoldAfterReset : Prop :=
  SettingsOk State.reset.settings ∧ WindowTableOk State.reset ∧ EnginesOk State.reset
    ∧ NoticesOk State.reset.notices State.reset.settings.noticeTarget ∧ PortOk State.reset
    ∧ ColdHeld { State.reset with power := .off } ∧ TablesOk State.reset

/-- Every step keeps each setting in its range, MANAGEMENT-SET non-empty, and each engine as R95, R111, R112 and R120 bound it. A cycle
that is current after a step is the one that was current before it, or a new one with a number that no cycle had: so a signal for a cycle
that has ended or was stopped never ends a later one, whatever resets lie between (R118, R130, R134; the numbers are log 17). -/
def Obligations.StepsKeepSettingsAndEngines : Prop :=
  ∀ s t : State, step s = .next t →
    (SettingsOk s.settings → SettingsOk t.settings) ∧ (EnginesOk s → EnginesOk t) ∧ s.cyclesStarted ≤ t.cyclesStarted
    ∧ ∀ (n : SegmentNumber) (y : RunningCycle), t.engines[n].current = some y →
        (∃ x, s.engines[n].current = some x ∧ x.cycle = y.cycle ∧ x.number = y.number) ∨ s.cyclesStarted ≤ y.number

/-- Every step keeps the Window Table: valid, disjoint windows, leases on OPEN unfrozen windows only, no CLOSING window with nothing in
flight. -/
def Obligations.StepsKeepTheWindowTable : Prop :=
  ∀ s t : State, WindowTableOk s → step s = .next t → WindowTableOk t

/-- Every step keeps the Notice Unit: its room, distinct waiting notices, and its timer, attempts and sequences as its state has them. -/
def Obligations.StepsKeepTheNoticeUnit : Prop :=
  ∀ s t : State, NoticesOk s.notices s.settings.noticeTarget → step s = .next t →
    NoticesOk t.notices t.settings.noticeTarget

/-- Every step keeps RESTARTING quiet, and the port RESTARTING while WARM_N is asserted; and while the cold reset lasts every block
holds its cold values (from the fall of PWRGOOD on is the model's choice where R51 says at the end, log 7). -/
def Obligations.StepsKeepTheResetStates : Prop :=
  ∀ s t : State, step s = .next t →
    (PortOk s → PortOk t) ∧ ((s.power ≠ .on → ColdHeld s) → (t.power ≠ .on → ColdHeld t))

/-- Every step keeps the tables together: each window's in-flight count is the number of items that name it, entries and queues refer to
each other, and no two entries of a requester that can be matched share a signature (R19, R70, R74, R98). -/
def Obligations.StepsKeepTheTables : Prop :=
  ∀ s t : State, TablesOk s → step s = .next t → TablesOk t
end

