-- ==== Sys2Proof/Laws/Bytes.lean ====
section
/-! SUPPORT. Fields of bytes: a number written in a field is the number read from it (R171), and the codes of R175 read back. -/

namespace Sys2Proof.Machine

@[simp] theorem fieldOf_length (width n : Nat) : (fieldOf width n).length = width := by
  induction width generalizing n with
  | zero => rfl
  | succ k ih => simp [fieldOf, ih]

theorem numberOf_fieldOf (width n : Nat) (h : n < 256 ^ width) : numberOf (fieldOf width n) = n := by
  induction width generalizing n with
  | zero => simp at h; simp [fieldOf, numberOf, h]
  | succ k ih =>
    have hk : n / 256 < 256 ^ k := by
      rw [Nat.div_lt_iff_lt_mul (by decide)]
      simpa [Nat.pow_succ] using h
    simp only [fieldOf, numberOf, ih _ hk, BitVec.toNat_ofNat]
    omega

theorem numberOf_lt (bytes : List Byte) : numberOf bytes < 256 ^ bytes.length := by
  induction bytes with
  | nil => simp [numberOf]
  | cons b bs ih =>
    have := b.isLt
    simp only [numberOf, List.length_cons, Nat.pow_succ]
    omega

theorem fieldOf_numberOf (bytes : List Byte) : fieldOf bytes.length (numberOf bytes) = bytes := by
  induction bytes with
  | nil => rfl
  | cons b bs ih =>
    have hb := b.isLt
    have h1 : (b.toNat + 256 * numberOf bs) / 256 = numberOf bs := by omega
    have h2 : BitVec.ofNat 8 (b.toNat + 256 * numberOf bs) = b := by
      apply BitVec.eq_of_toNat_eq
      simp only [BitVec.toNat_ofNat]
      omega
    simp [numberOf, fieldOf, h1, h2, ih]

theorem fieldAt_lt (block : List Byte) (offset width : Nat) : fieldAt block offset width < 256 ^ width := by
  refine lt_of_lt_of_le (numberOf_lt _) (Nat.pow_le_pow_right (by decide) ?_)
  simp

/-- A field that follows `before` reads as what was written into it. -/
theorem fieldAt_written (before after : List Byte) (offset width n : Nat) (hl : before.length = offset)
    (hn : n < 256 ^ width) : fieldAt (before ++ (fieldOf width n ++ after)) offset width = n := by
  subst hl
  simp [fieldAt, numberOf_fieldOf width n hn]

@[simp] theorem Space.ofCode_code (x : Space) : Space.ofCode x.code = some x := by cases x <;> rfl

@[simp] theorem WritePolicy.ofCode_code (x : WritePolicy) : WritePolicy.ofCode x.code = some x := by cases x <;> rfl

@[simp] theorem AbsentPolicy.ofCode_code (x : AbsentPolicy) : AbsentPolicy.ofCode x.code = some x := by cases x <;> rfl

@[simp] theorem segmentOf_ofNat (n : SegmentNumber) : segmentOf (BitVec.ofNat 8 n.val) = some n := by
  revert n; decide

@[simp] theorem windowOf_ofNat (w : WindowNumber) : windowOf (BitVec.ofNat 8 w.val) = some w := by
  revert w; decide

@[simp] theorem slotOf_ofNat (slot : Slot) : slotOf (BitVec.ofNat 8 slot.val) = some slot := by
  revert slot; decide

@[simp] theorem requesterOperand_ofNat (r : Requester) : requesterOperand (BitVec.ofNat 8 r.val) = some r := by
  revert r; decide

@[simp] theorem requesterOf_ofNat (r : Requester) : requesterOf (BitVec.ofNat 8 r.val) = r := by
  revert r; decide

/-- A setting's segment number, window and requester operands are below their bounds exactly where the fields read. -/
theorem windowOf_none (b : Byte) : windowOf b = none ↔ 48 ≤ b.toNat := by
  unfold windowOf; split <;> simp <;> omega

theorem segmentOf_none (b : Byte) : segmentOf b = none ↔ 4 ≤ b.toNat := by
  unfold segmentOf; split <;> simp <;> omega

theorem slotOf_none (b : Byte) : slotOf b = none ↔ 16 ≤ b.toNat := by
  unfold slotOf; split <;> simp <;> omega

theorem requesterOperand_none (b : Byte) : requesterOperand b = none ↔ 32 ≤ b.toNat := by
  unfold requesterOperand; split <;> simp <;> omega

end Sys2Proof.Machine
end

