-- ==== Sys2Proof/Laws/State.lean ====
section
/-! SUPPORT. One lemma for each field of State and each update of one record, true by rfl, so that no proof unfolds a record
update, and what a record reads as after a write. -/

namespace Sys2Proof.Machine

/-! ### Whole tables -/

@[simp] theorem everyRecord_eq_map {α : Type} {n : Nat} (records : Vector α n) (f : α → α) :
    everyRecord records f = records.map f := by
  ext i; simp [everyRecord]

/-! ### setWindow -/

@[simp] theorem State.setWindow_power (s : State) (w : WindowNumber) (r : Window) :
    (s.setWindow w r).power = s.power := rfl

@[simp] theorem State.setWindow_warmN (s : State) (w : WindowNumber) (r : Window) :
    (s.setWindow w r).warmN = s.warmN := rfl

@[simp] theorem State.setWindow_port (s : State) (w : WindowNumber) (r : Window) :
    (s.setWindow w r).port = s.port := rfl

@[simp] theorem State.setWindow_answers (s : State) (w : WindowNumber) (r : Window) :
    (s.setWindow w r).answers = s.answers := rfl

@[simp] theorem State.setWindow_handed (s : State) (w : WindowNumber) (r : Window) :
    (s.setWindow w r).handed = s.handed := rfl

@[simp] theorem State.setWindow_link (s : State) (w : WindowNumber) (r : Window) :
    (s.setWindow w r).link = s.link := rfl

@[simp] theorem State.setWindow_windows (s : State) (w : WindowNumber) (r : Window) :
    (s.setWindow w r).windows = s.windows.set w.val r := rfl

@[simp] theorem State.setWindow_entries (s : State) (w : WindowNumber) (r : Window) :
    (s.setWindow w r).entries = s.entries := rfl

@[simp] theorem State.setWindow_engines (s : State) (w : WindowNumber) (r : Window) :
    (s.setWindow w r).engines = s.engines := rfl

@[simp] theorem State.setWindow_cyclesStarted (s : State) (w : WindowNumber) (r : Window) :
    (s.setWindow w r).cyclesStarted = s.cyclesStarted := rfl

@[simp] theorem State.setWindow_notices (s : State) (w : WindowNumber) (r : Window) :
    (s.setWindow w r).notices = s.notices := rfl

@[simp] theorem State.setWindow_settings (s : State) (w : WindowNumber) (r : Window) :
    (s.setWindow w r).settings = s.settings := rfl

@[simp] theorem State.setWindow_pending (s : State) (w : WindowNumber) (r : Window) :
    (s.setWindow w r).pending = s.pending := rfl

/-! ### setEntry -/

@[simp] theorem State.setEntry_power (s : State) (slot : Slot) (e : Entry) :
    (s.setEntry slot e).power = s.power := rfl

@[simp] theorem State.setEntry_warmN (s : State) (slot : Slot) (e : Entry) :
    (s.setEntry slot e).warmN = s.warmN := rfl

@[simp] theorem State.setEntry_port (s : State) (slot : Slot) (e : Entry) :
    (s.setEntry slot e).port = s.port := rfl

@[simp] theorem State.setEntry_answers (s : State) (slot : Slot) (e : Entry) :
    (s.setEntry slot e).answers = s.answers := rfl

@[simp] theorem State.setEntry_handed (s : State) (slot : Slot) (e : Entry) :
    (s.setEntry slot e).handed = s.handed := rfl

@[simp] theorem State.setEntry_link (s : State) (slot : Slot) (e : Entry) :
    (s.setEntry slot e).link = s.link := rfl

@[simp] theorem State.setEntry_windows (s : State) (slot : Slot) (e : Entry) :
    (s.setEntry slot e).windows = s.windows := rfl

@[simp] theorem State.setEntry_entries (s : State) (slot : Slot) (e : Entry) :
    (s.setEntry slot e).entries = s.entries.set slot.val e := rfl

@[simp] theorem State.setEntry_engines (s : State) (slot : Slot) (e : Entry) :
    (s.setEntry slot e).engines = s.engines := rfl

@[simp] theorem State.setEntry_cyclesStarted (s : State) (slot : Slot) (e : Entry) :
    (s.setEntry slot e).cyclesStarted = s.cyclesStarted := rfl

@[simp] theorem State.setEntry_notices (s : State) (slot : Slot) (e : Entry) :
    (s.setEntry slot e).notices = s.notices := rfl

@[simp] theorem State.setEntry_settings (s : State) (slot : Slot) (e : Entry) :
    (s.setEntry slot e).settings = s.settings := rfl

@[simp] theorem State.setEntry_pending (s : State) (slot : Slot) (e : Entry) :
    (s.setEntry slot e).pending = s.pending := rfl

/-! ### setEngine -/

@[simp] theorem State.setEngine_power (s : State) (n : SegmentNumber) (e : Engine) :
    (s.setEngine n e).power = s.power := rfl

@[simp] theorem State.setEngine_warmN (s : State) (n : SegmentNumber) (e : Engine) :
    (s.setEngine n e).warmN = s.warmN := rfl

@[simp] theorem State.setEngine_port (s : State) (n : SegmentNumber) (e : Engine) :
    (s.setEngine n e).port = s.port := rfl

@[simp] theorem State.setEngine_answers (s : State) (n : SegmentNumber) (e : Engine) :
    (s.setEngine n e).answers = s.answers := rfl

@[simp] theorem State.setEngine_handed (s : State) (n : SegmentNumber) (e : Engine) :
    (s.setEngine n e).handed = s.handed := rfl

@[simp] theorem State.setEngine_link (s : State) (n : SegmentNumber) (e : Engine) :
    (s.setEngine n e).link = s.link := rfl

@[simp] theorem State.setEngine_windows (s : State) (n : SegmentNumber) (e : Engine) :
    (s.setEngine n e).windows = s.windows := rfl

@[simp] theorem State.setEngine_entries (s : State) (n : SegmentNumber) (e : Engine) :
    (s.setEngine n e).entries = s.entries := rfl

@[simp] theorem State.setEngine_engines (s : State) (n : SegmentNumber) (e : Engine) :
    (s.setEngine n e).engines = s.engines.set n.val e := rfl

@[simp] theorem State.setEngine_cyclesStarted (s : State) (n : SegmentNumber) (e : Engine) :
    (s.setEngine n e).cyclesStarted = s.cyclesStarted := rfl

@[simp] theorem State.setEngine_notices (s : State) (n : SegmentNumber) (e : Engine) :
    (s.setEngine n e).notices = s.notices := rfl

@[simp] theorem State.setEngine_settings (s : State) (n : SegmentNumber) (e : Engine) :
    (s.setEngine n e).settings = s.settings := rfl

@[simp] theorem State.setEngine_pending (s : State) (n : SegmentNumber) (e : Engine) :
    (s.setEngine n e).pending = s.pending := rfl

/-! ### setNotices -/

@[simp] theorem State.setNotices_power (s : State) (u : NoticeUnit) :
    (s.setNotices u).power = s.power := rfl

@[simp] theorem State.setNotices_warmN (s : State) (u : NoticeUnit) :
    (s.setNotices u).warmN = s.warmN := rfl

@[simp] theorem State.setNotices_port (s : State) (u : NoticeUnit) :
    (s.setNotices u).port = s.port := rfl

@[simp] theorem State.setNotices_answers (s : State) (u : NoticeUnit) :
    (s.setNotices u).answers = s.answers := rfl

@[simp] theorem State.setNotices_handed (s : State) (u : NoticeUnit) :
    (s.setNotices u).handed = s.handed := rfl

@[simp] theorem State.setNotices_link (s : State) (u : NoticeUnit) :
    (s.setNotices u).link = s.link := rfl

@[simp] theorem State.setNotices_windows (s : State) (u : NoticeUnit) :
    (s.setNotices u).windows = s.windows := rfl

@[simp] theorem State.setNotices_entries (s : State) (u : NoticeUnit) :
    (s.setNotices u).entries = s.entries := rfl

@[simp] theorem State.setNotices_engines (s : State) (u : NoticeUnit) :
    (s.setNotices u).engines = s.engines := rfl

@[simp] theorem State.setNotices_cyclesStarted (s : State) (u : NoticeUnit) :
    (s.setNotices u).cyclesStarted = s.cyclesStarted := rfl

@[simp] theorem State.setNotices_notices (s : State) (u : NoticeUnit) :
    (s.setNotices u).notices = u := rfl

@[simp] theorem State.setNotices_settings (s : State) (u : NoticeUnit) :
    (s.setNotices u).settings = s.settings := rfl

@[simp] theorem State.setNotices_pending (s : State) (u : NoticeUnit) :
    (s.setNotices u).pending = s.pending := rfl

/-! ### answer -/

@[simp] theorem State.answer_power (s : State) (r : Requester) (a : Answer) :
    (s.answer r a).power = s.power := rfl

@[simp] theorem State.answer_warmN (s : State) (r : Requester) (a : Answer) :
    (s.answer r a).warmN = s.warmN := rfl

@[simp] theorem State.answer_port (s : State) (r : Requester) (a : Answer) :
    (s.answer r a).port = s.port := rfl

@[simp] theorem State.answer_answers (s : State) (r : Requester) (a : Answer) :
    (s.answer r a).answers = s.answers ++ [⟨r, a⟩] := rfl

@[simp] theorem State.answer_handed (s : State) (r : Requester) (a : Answer) :
    (s.answer r a).handed = s.handed := rfl

@[simp] theorem State.answer_link (s : State) (r : Requester) (a : Answer) :
    (s.answer r a).link = s.link := rfl

@[simp] theorem State.answer_windows (s : State) (r : Requester) (a : Answer) :
    (s.answer r a).windows = s.windows := rfl

@[simp] theorem State.answer_entries (s : State) (r : Requester) (a : Answer) :
    (s.answer r a).entries = s.entries := rfl

@[simp] theorem State.answer_engines (s : State) (r : Requester) (a : Answer) :
    (s.answer r a).engines = s.engines := rfl

@[simp] theorem State.answer_cyclesStarted (s : State) (r : Requester) (a : Answer) :
    (s.answer r a).cyclesStarted = s.cyclesStarted := rfl

@[simp] theorem State.answer_notices (s : State) (r : Requester) (a : Answer) :
    (s.answer r a).notices = s.notices := rfl

@[simp] theorem State.answer_settings (s : State) (r : Requester) (a : Answer) :
    (s.answer r a).settings = s.settings := rfl

@[simp] theorem State.answer_pending (s : State) (r : Requester) (a : Answer) :
    (s.answer r a).pending = s.pending := rfl

/-! ### raise -/

@[simp] theorem State.raise_power (s : State) (news : News) (n : Nat) :
    (s.raise news n).power = s.power := rfl

@[simp] theorem State.raise_warmN (s : State) (news : News) (n : Nat) :
    (s.raise news n).warmN = s.warmN := rfl

@[simp] theorem State.raise_port (s : State) (news : News) (n : Nat) :
    (s.raise news n).port = s.port := rfl

@[simp] theorem State.raise_answers (s : State) (news : News) (n : Nat) :
    (s.raise news n).answers = s.answers := rfl

@[simp] theorem State.raise_handed (s : State) (news : News) (n : Nat) :
    (s.raise news n).handed = s.handed := rfl

@[simp] theorem State.raise_link (s : State) (news : News) (n : Nat) :
    (s.raise news n).link = s.link := rfl

@[simp] theorem State.raise_windows (s : State) (news : News) (n : Nat) :
    (s.raise news n).windows = s.windows := rfl

@[simp] theorem State.raise_entries (s : State) (news : News) (n : Nat) :
    (s.raise news n).entries = s.entries := rfl

@[simp] theorem State.raise_engines (s : State) (news : News) (n : Nat) :
    (s.raise news n).engines = s.engines := rfl

@[simp] theorem State.raise_cyclesStarted (s : State) (news : News) (n : Nat) :
    (s.raise news n).cyclesStarted = s.cyclesStarted := rfl

@[simp] theorem State.raise_notices (s : State) (news : News) (n : Nat) :
    (s.raise news n).notices = s.notices.raise news n := rfl

@[simp] theorem State.raise_settings (s : State) (news : News) (n : Nat) :
    (s.raise news n).settings = s.settings := rfl

@[simp] theorem State.raise_pending (s : State) (news : News) (n : Nat) :
    (s.raise news n).pending = s.pending := rfl

/-! ### Reading a record after a write -/

theorem window_after_set (s : State) (w v : WindowNumber) (r : Window) :
    (s.setWindow w r).windows[v] = if v = w then r else s.windows[v] := by
  by_cases h : v = w
  · subst h; simp [State.setWindow]
  · have : w.val ≠ v.val := fun e => h (Fin.ext e.symm)
    simp [State.setWindow, h, this]

theorem entry_after_set (s : State) (a b : Slot) (e : Entry) :
    (s.setEntry a e).entries[b] = if b = a then e else s.entries[b] := by
  by_cases h : b = a
  · subst h; simp [State.setEntry]
  · have : a.val ≠ b.val := fun e => h (Fin.ext e.symm)
    simp [State.setEntry, h, this]

theorem engine_after_set (s : State) (n m : SegmentNumber) (e : Engine) :
    (s.setEngine n e).engines[m] = if m = n then e else s.engines[m] := by
  by_cases h : m = n
  · subst h; simp [State.setEngine]
  · have : n.val ≠ m.val := fun e => h (Fin.ext e.symm)
    simp [State.setEngine, h, this]

/-- Writing the record that stands there changes nothing. -/
theorem setWindow_same (s : State) (w : WindowNumber) : s.setWindow w s.windows[w] = s := by
  simp [State.setWindow]

theorem setEntry_same (s : State) (slot : Slot) : s.setEntry slot s.entries[slot] = s := by
  simp [State.setEntry]

theorem setEngine_same (s : State) (n : SegmentNumber) : s.setEngine n s.engines[n] = s := by
  simp [State.setEngine]

end Sys2Proof.Machine
end

