-- ==== Sys2Proof/Laws/Ops.lean ====
section
/-! SUPPORT. What each shared operation can do, said once: the port's first steps, the path of a MANAGE ask, the raise of a notice, the
falls of a window's count and its retirement, and which fields each operation leaves alone. -/

namespace Sys2Proof.Machine

/-! ### The port -/

theorem atPort_in_cold_reset (h : Header) (n : Nat) (f : Requester → State → State × Answer) (s : State)
    (hp : s.power ≠ .on) : atPort h n f s = s := by
  simp [atPort, hp]

theorem atPort_without_sender (h : Header) (n : Nat) (f : Requester → State → State × Answer) (s : State)
    (hs : sender h = none) : atPort h n f s = s := by
  simp [atPort, hs]

theorem atPort_restarting (h : Header) (n : Nat) (f : Requester → State → State × Answer) (s : State) (r : Requester)
    (hp : s.power = .on) (hr : sender h = some r) (hq : s.port = .restarting) :
    atPort h n f s = s.answer r (.again .restarting) := by
  simp [atPort, hp, hr, hq]

theorem atPort_malformed (h : Header) (n : Nat) (f : Requester → State → State × Answer) (s : State) (r : Requester)
    (hp : s.power = .on) (hr : sender h = some r) (hq : s.port = .running) (hh : headerOk h n = false) :
    atPort h n f s = s.answer r (.fault .malformed) := by
  simp [atPort, hp, hr, hq, hh]

theorem atPort_running (h : Header) (n : Nat) (f : Requester → State → State × Answer) (s : State) (r : Requester)
    (hp : s.power = .on) (hr : sender h = some r) (hq : s.port = .running) (hh : headerOk h n = true) :
    atPort h n f s = (f r s).1.answer r (f r s).2 := by
  simp [atPort, hp, hr, hq, hh]

/-- What can become of an ask at the port: nothing, or one answer on the state that its handler leaves, or on the state as it was. -/
theorem atPort_cases (h : Header) (n : Nat) (f : Requester → State → State × Answer) (s : State) :
    atPort h n f s = s
      ∨ (∃ r a, sender h = some r ∧ atPort h n f s = s.answer r a)
      ∨ ∃ r, sender h = some r ∧ s.power = .on ∧ s.port = .running ∧ atPort h n f s = (f r s).1.answer r (f r s).2 := by
  unfold atPort
  split
  · rename_i hp
    cases hs : sender h with
    | none => exact .inl rfl
    | some r =>
      dsimp only
      split
      · exact .inr (.inl ⟨r, _, rfl, rfl⟩)
      · rename_i hq
        split
        · refine .inr (.inr ⟨r, rfl, hp, ?_, rfl⟩)
          cases hport : s.port <;> simp_all
        · exact .inr (.inl ⟨r, _, rfl, rfl⟩)
  · exact .inl rfl

/-! ### The path of a MANAGE ask -/

theorem runCommand_ok (c : Command) (s t : State) (block : List Byte) (h : c s = .ok (t, block)) :
    runCommand c s = (t, .managed block) := by
  simp [runCommand, h]

theorem runCommand_error (c : Command) (s : State) (code : FaultCode) (h : c s = .error code) :
    runCommand c s = (s, .fault code) := by
  simp [runCommand, h]

theorem manage_permitted (h : Header) (ops : List Byte) (c : Command) (s : State) (r : Requester) (hp : s.power = .on)
    (hq : s.port = .running) (hr : sender h = some r) (hh : headerOk h (ops.length + 1) = true) (hl : ops.length ≤ 24)
    (hm : s.permits r = true) : manage h ops c s = (runCommand c s).1.answer r (runCommand c s).2 := by
  unfold manage
  rw [atPort_running _ _ _ _ _ hp hr hq hh]
  have : ¬ Config.operandLimit < ops.length := by simp [Config.operandLimit]; omega
  simp [this, hm]

theorem manage_denied (h : Header) (ops : List Byte) (c : Command) (s : State) (r : Requester) (hp : s.power = .on)
    (hq : s.port = .running) (hr : sender h = some r) (hh : headerOk h (ops.length + 1) = true) (hl : ops.length ≤ 24)
    (hm : s.permits r = false) : manage h ops c s = s.answer r (.fault .notPermitted) := by
  unfold manage
  rw [atPort_running _ _ _ _ _ hp hr hq hh]
  have : ¬ Config.operandLimit < ops.length := by simp [Config.operandLimit]; omega
  simp [this, hm]

/-- What can become of a MANAGE ask: nothing, one answer on the state as it was, or the command's own effect and block. -/
theorem manage_cases (h : Header) (ops : List Byte) (c : Command) (s : State) :
    manage h ops c s = s
      ∨ (∃ r a, sender h = some r ∧ manage h ops c s = s.answer r a ∧ ∀ block, a ≠ .managed block)
      ∨ ∃ r t block, sender h = some r ∧ s.power = .on ∧ s.port = .running ∧ s.permits r = true ∧ c s = .ok (t, block)
          ∧ manage h ops c s = t.answer r (.managed block) := by
  unfold manage atPort
  split
  · rename_i hp
    cases hs : sender h with
    | none => exact .inl rfl
    | some r =>
      dsimp only
      split
      · exact .inr (.inl ⟨r, _, rfl, rfl, by simp⟩)
      · rename_i hq
        have hrun : s.port = .running := by cases hport : s.port <;> simp_all
        split
        · split
          · exact .inr (.inl ⟨r, _, rfl, rfl, by simp⟩)
          · split
            · rename_i hm
              cases hc : c s with
              | error code =>
                rw [runCommand_error _ _ _ hc]
                exact .inr (.inl ⟨r, _, rfl, rfl, by simp⟩)
              | ok p =>
                obtain ⟨t, block⟩ := p
                rw [runCommand_ok _ _ _ _ hc]
                exact .inr (.inr ⟨r, t, block, rfl, hp, hrun, hm, rfl, rfl⟩)
            · exact .inr (.inl ⟨r, _, rfl, rfl, by simp⟩)
        · exact .inr (.inl ⟨r, _, rfl, rfl, by simp⟩)
  · exact .inl rfl

/-! ### Notices -/

theorem raise_coalesces (u : NoticeUnit) (news : News) (n : Nat) (rest : List Notice)
    (h : coalesce news.key n (u.queue.drop u.flying) = some rest) :
    u.raise news n = { u with queue := u.queue.take u.flying ++ rest } := by
  simp [NoticeUnit.raise, h]

theorem raise_appends (u : NoticeUnit) (news : News) (n : Nat) (h : coalesce news.key n (u.queue.drop u.flying) = none)
    (room : u.queue.length < 16) : u.raise news n = { u with queue := u.queue ++ [⟨news, min 255 n, none⟩] } := by
  simp [NoticeUnit.raise, h, Config.noticeCapacity, Config.repeatLimit, room]

theorem raise_overruns (u : NoticeUnit) (news : News) (n : Nat) (h : coalesce news.key n (u.queue.drop u.flying) = none)
    (full : 16 ≤ u.queue.length) : u.raise news n = { u with overrun := true } := by
  have : ¬ u.queue.length < 16 := by omega
  simp [NoticeUnit.raise, h, Config.noticeCapacity, this]

theorem coalesce_none (key : NoticeKind × Nat) (n : Nat) (l : List Notice) :
    coalesce key n l = none ↔ ∀ x ∈ l, x.news.key ≠ key := by
  induction l with
  | nil => simp [coalesce]
  | cons x xs ih =>
    simp only [coalesce]
    split <;> simp_all

theorem coalesce_first (key : NoticeKind × Nat) (n : Nat) (before after : List Notice) (x : Notice)
    (hb : ∀ y ∈ before, y.news.key ≠ key) (hx : x.news.key = key) :
    coalesce key n (before ++ x :: after) = some (before ++ x.repeated n :: after) := by
  induction before with
  | nil => simp [coalesce, hx]
  | cons y ys ih =>
    have hy : y.news.key ≠ key := hb y (by simp)
    simp [coalesce, hy, ih fun z hz => hb z (by simp [hz])]

theorem takeKey_none (key : NoticeKind × Nat) (l : List Notice) : takeKey key l = none ↔ ∀ x ∈ l, x.news.key ≠ key := by
  induction l with
  | nil => simp [takeKey]
  | cons x xs ih =>
    simp only [takeKey]
    split <;> simp_all

theorem takeKey_first (key : NoticeKind × Nat) (before after : List Notice) (x : Notice)
    (hb : ∀ y ∈ before, y.news.key ≠ key) (hx : x.news.key = key) :
    takeKey key (before ++ x :: after) = some (x.repeats, before ++ after) := by
  induction before with
  | nil => simp [takeKey, hx]
  | cons y ys ih =>
    have hy : y.news.key ≠ key := hb y (by simp)
    simp [takeKey, hy, ih fun z hz => hb z (by simp [hz])]

/-! ### The fall of a window's count -/

theorem settle_retires (s : State) (w : WindowNumber) (h : s.windows[w].state = .closing ∧ s.windows[w].inFlight = 0) :
    s.settle w = s.retire w := by
  simp only [State.settle]; rw [if_pos h]

theorem settle_stays (s : State) (w : WindowNumber) (h : ¬(s.windows[w].state = .closing ∧ s.windows[w].inFlight = 0)) :
    s.settle w = s := by
  simp only [State.settle]; rw [if_neg h]

/-- Two states agree but for their windows and notices. -/
structure SameButWindows (s t : State) : Prop where
  power : t.power = s.power
  warmN : t.warmN = s.warmN
  port : t.port = s.port
  answers : t.answers = s.answers
  handed : t.handed = s.handed
  link : t.link = s.link
  entries : t.entries = s.entries
  engines : t.engines = s.engines
  cyclesStarted : t.cyclesStarted = s.cyclesStarted
  settings : t.settings = s.settings
  pending : t.pending = s.pending

theorem SameButWindows.refl (s : State) : SameButWindows s s := ⟨rfl, rfl, rfl, rfl, rfl, rfl, rfl, rfl, rfl, rfl, rfl⟩

theorem SameButWindows.trans {s t u : State} (h : SameButWindows s t) (k : SameButWindows t u) : SameButWindows s u :=
  ⟨k.power.trans h.power, k.warmN.trans h.warmN, k.port.trans h.port, k.answers.trans h.answers, k.handed.trans h.handed,
    k.link.trans h.link, k.entries.trans h.entries, k.engines.trans h.engines,
    k.cyclesStarted.trans h.cyclesStarted, k.settings.trans h.settings, k.pending.trans h.pending⟩

theorem setWindow_frame (s : State) (w : WindowNumber) (r : Window) : SameButWindows s (s.setWindow w r) :=
  ⟨rfl, rfl, rfl, rfl, rfl, rfl, rfl, rfl, rfl, rfl, rfl⟩

theorem raise_frame (s : State) (news : News) (n : Nat) : SameButWindows s (s.raise news n) :=
  ⟨rfl, rfl, rfl, rfl, rfl, rfl, rfl, rfl, rfl, rfl, rfl⟩

theorem settle_frame (s : State) (w : WindowNumber) : SameButWindows s (s.settle w) := by
  unfold State.settle State.retire
  split
  · exact (setWindow_frame s w _).trans (raise_frame _ _ _)
  · exact .refl s

theorem lower_frame (s : State) (w : WindowNumber) (n : Nat) : SameButWindows s (s.lower w n) :=
  (setWindow_frame s w _).trans (settle_frame _ w)

theorem lowerRoute_frame (s : State) (r : Route) : SameButWindows s (s.lowerRoute r) := by
  unfold State.lowerRoute
  split
  · exact .refl s
  · split
    · exact lower_frame s _ 1
    · exact .refl s

theorem lowerRoutes_frame (s : State) (routes : List Route) : SameButWindows s (s.lowerRoutes routes) := by
  unfold State.lowerRoutes
  generalize allWindows = l
  suffices ∀ t, SameButWindows s t → SameButWindows s (l.foldl
      (fun t w => if routes.any (·.names s w) then t.lower w (routes.countP (·.names s w)) else t) t) from this s (.refl s)
  induction l with
  | nil => exact fun t h => h
  | cons w ws ih =>
    intro t h
    refine ih _ ?_
    dsimp only
    split
    · exact h.trans (lower_frame t w _)
    · exact h

theorem raiseRoute_frame (s : State) (r : Route) : SameButWindows s (s.raiseRoute r) := by
  unfold State.raiseRoute
  split
  · exact .refl s
  · split
    · exact setWindow_frame s _ _
    · exact .refl s

/-- Each window but the one that settles reads as before. -/
theorem settle_other (s : State) (w v : WindowNumber) (h : v ≠ w) : (s.settle w).windows[v] = s.windows[v] := by
  unfold State.settle State.retire
  split
  · simp only [State.raise_windows]; rw [window_after_set, if_neg h]
  · rfl

theorem lower_other (s : State) (w v : WindowNumber) (n : Nat) (h : v ≠ w) : (s.lower w n).windows[v] = s.windows[v] := by
  unfold State.lower
  rw [settle_other _ _ _ h, window_after_set, if_neg h]

/-- The window whose count falls: CLOSING with none left, it is FREE (R21, R44). -/
theorem lower_self (s : State) (w : WindowNumber) (n : Nat) :
    (s.lower w n).windows[w] =
      { s.windows[w] with
        inFlight := s.windows[w].inFlight - n
        state := if s.windows[w].state = .closing ∧ s.windows[w].inFlight - n = 0 then .free else s.windows[w].state } := by
  unfold State.lower State.settle
  have e : (s.setWindow w { s.windows[w] with inFlight := s.windows[w].inFlight - n }).windows[w]
      = { s.windows[w] with inFlight := s.windows[w].inFlight - n } := by rw [window_after_set, if_pos rfl]
  rw [e]
  by_cases h : s.windows[w].state = .closing ∧ s.windows[w].inFlight - n = 0
  · rw [if_pos h, if_pos h]
    simp only [State.retire, State.raise_windows]
    rw [window_after_set, if_pos rfl, e]
  · rw [if_neg h, if_neg h, e]

/-- The notice of the window whose count falls (R44, R45). -/
theorem lower_notices (s : State) (w : WindowNumber) (n : Nat) :
    (s.lower w n).notices =
      if s.windows[w].state = .closing ∧ s.windows[w].inFlight - n = 0 then
        s.notices.raise (.windowRetired w s.windows[w].generation s.windows[w].retireReason) 1
      else s.notices := by
  unfold State.lower State.settle
  have e : (s.setWindow w { s.windows[w] with inFlight := s.windows[w].inFlight - n }).windows[w]
      = { s.windows[w] with inFlight := s.windows[w].inFlight - n } := by rw [window_after_set, if_pos rfl]
  rw [e]
  by_cases h : s.windows[w].state = .closing ∧ s.windows[w].inFlight - n = 0
  · rw [if_pos h, if_pos h]
    simp only [State.retire, State.raise_notices, State.setWindow_notices, e]
  · rw [if_neg h, if_neg h]
    rfl

/-! ### Entries and queues -/

theorem freeEntry_entry (s : State) (a b : Slot) :
    (s.freeEntry a).entries[b] = if b = a then s.entries[a].freed else s.entries[b] := entry_after_set s a b _

theorem completeEntry_entry (s : State) (a b : Slot) (o : EntryOutcome) (d : Option (List Byte)) :
    (s.completeEntry a o d).entries[b]
      = if b = a then s.entries[a].completed o d s.settings.discardInterval else s.entries[b] := entry_after_set s a b _

theorem endEntry_entry (s : State) (a b : Slot) :
    (s.endEntry a).entries[b] = if b = a then s.entries[a].freed else s.entries[b] := by
  unfold State.endEntry
  rw [(lowerRoute_frame _ _).entries]
  exact freeEntry_entry s a b

theorem withdraw_engine (s : State) (gone : Item → Bool) (n : SegmentNumber) :
    (s.withdraw gone).engines[n] = { s.engines[n] with queue := s.engines[n].queue.filter fun i => !gone i } := by
  simp [State.withdraw]

/-- Taking items out of the list never raises the posted count (R107). -/
theorem withdraw_postedCount (s : State) (gone : Item → Bool) (n : SegmentNumber) :
    (s.withdraw gone).engines[n].postedCount ≤ s.engines[n].postedCount := by
  rw [withdraw_engine]
  simp only [Engine.postedCount, Engine.items, List.countP_append]
  exact Nat.add_le_add_left (List.Sublist.countP_le List.filter_sublist) _

theorem enqueue_engine (s : State) (n m : SegmentNumber) (i : Item) :
    (s.enqueue n i).engines[m]
      = if m = n then { s.engines[n] with queue := s.engines[n].queue ++ [i] } else s.engines[m] :=
  engine_after_set s n m _

end Sys2Proof.Machine
end

