-- ==== Sys2Proof/Laws/Asks.lean ====
section
/-! SUPPORT. How the asks of the statements reach their blocks: the header of a well-formed ask, the path of a MANAGE ask, and what a
body or an operand block that was written out reads as. The codes and setting values that the statements write out are the model's. -/

namespace Sys2Proof.Safety

open Sys2Proof.Machine

theorem byteOf_toNat (n : Nat) (h : n < 256) : (byteOf n).toNat = n := by
  simp [byteOf]; omega

@[simp] theorem sender_header (r : Requester) (n : Nat) : sender (header r n) = some r := by
  simp [sender, header, byteOf]

theorem headerOk_header (r : Requester) (n : Nat) (h : n < 256) : headerOk (header r n) n = true := by
  have hr := r.isLt
  simp only [headerOk, header, Bool.and_eq_true, decide_eq_true_eq, byteOf_toNat n h]
  rw [byteOf_toNat r.val (by omega)]
  simp [hr]

/-- A MANAGE ask of a member, at the block that owns the command. -/
theorem manage_member (s : State) (r : Requester) (block : List Byte) (c : Command) (hm : Manages s r)
    (hl : block.length ≤ 24) :
    manage (header r (block.length + 1)) block c s = (runCommand c s).1.answer r (runCommand c s).2 :=
  manage_permitted _ _ _ _ _ hm.1.1 hm.1.2 (sender_header r _) (headerOk_header r _ (by omega)) hl hm.2

theorem manage_member_ok (s t : State) (r : Requester) (block result : List Byte) (c : Command) (hm : Manages s r)
    (hl : block.length ≤ 24) (h : c s = .ok (t, result)) :
    manage (header r (block.length + 1)) block c s = t.answer r (.managed result) := by
  rw [manage_member s r block c hm hl, runCommand_ok _ _ _ _ h]

theorem manage_member_error (s : State) (r : Requester) (block : List Byte) (c : Command) (code : FaultCode)
    (hm : Manages s r) (hl : block.length ≤ 24) (h : c s = .error code) :
    manage (header r (block.length + 1)) block c s = s.answer r (.fault code) := by
  rw [manage_member s r block c hm hl, runCommand_error _ _ _ h]

@[simp] theorem byteAt_zero (b : Byte) (bs : List Byte) : byteAt (b :: bs) 0 = b := rfl

@[simp] theorem byteAt_succ (b : Byte) (bs : List Byte) (n : Nat) : byteAt (b :: bs) (n + 1) = byteAt bs n := rfl

theorem emptied_eq (e : Entry) : emptied e = e.freed := rfl

theorem finished_eq (e : Entry) (o : EntryOutcome) (d : Option (List Byte)) (n : Nat) : finished e o d n = e.completed o d n := rfl

theorem idled_eq (e : Engine) : idled e = e.idle := rfl

/-! ### The codes of the statements are those of the model -/

@[simp] theorem faultByte_eq_code (x : FaultCode) : faultByte x = x.code := by cases x <;> rfl

@[simp] theorem outcomeByte_eq_code (x : EntryOutcome) : outcomeByte x = x.code := by cases x <;> rfl

@[simp] theorem lossByte_eq_code (x : LossCause) : lossByte x = x.code := by cases x <;> rfl

@[simp] theorem causeByte_eq_code (x : FaultCause) : causeByte x = x.code := by cases x <;> rfl

@[simp] theorem retireByte_eq_code (x : RetireReason) : retireByte x = x.code := by cases x <;> rfl

@[simp] theorem entryKindByte_eq_code (x : AccessKind) : entryKindByte x = x.code := by cases x <;> rfl

@[simp] theorem spaceByte_eq_code (x : Space) : spaceByte x = x.code := by cases x <;> rfl

@[simp] theorem writePolicyByte_eq_code (x : WritePolicy) : writePolicyByte x = x.code := by cases x <;> rfl

@[simp] theorem absentPolicyByte_eq_code (x : AbsentPolicy) : absentPolicyByte x = x.code := by cases x <;> rfl

@[simp] theorem windowStateByte_eq_code (x : WindowState) : windowStateByte x = x.code := by cases x <;> rfl

@[simp] theorem entryStateByte_eq_code (x : EntryState) : entryStateByte x = x.code := by cases x <;> rfl

@[simp] theorem engineByte_eq_code (x : EngineState) : engineByte x = x.code := by cases x <;> rfl

@[simp] theorem deliveryByte_eq_code (x : Delivery) : deliveryByte x = x.code := by cases x <;> rfl

@[simp] theorem numberOrNone_eq {n : Nat} (x : Option (Fin n)) : numberOrNone x = optionValue x := by cases x <;> rfl

@[simp] theorem settingValue_eq_value (v : Settings) (name : SettingName) : settingValue v name = v.value name := by
  cases name <;> simp only [settingValue, Settings.value, numberOrNone_eq]
  case defaultAbsentPolicy => cases v.defaultAbsentPolicy <;> rfl
  case width n => cases v.segments[n].width <;> rfl

/-! ### Timers -/

theorem mayExpire_iff (t : Option Timer) : mayExpire t = true ↔ MayExpire t := by
  cases t <;> simp [mayExpire, Timer.mayExpire, MayExpire]

theorem mayExpire_eq_false (t : Option Timer) (h : ¬ MayExpire t) : mayExpire t = false := by
  rw [← mayExpire_iff] at h; simpa using h

end Sys2Proof.Safety
end

