-- ==== Sys2Proof/Laws/Access.lean ====
section
/-! SUPPORT. READ and WRITE: a body is read back as its ask, matching and lookup find what the words of the statements name, and decode hands off what passes (R9–R18, R58, R72–R78). -/

namespace Sys2Proof.Safety

open Sys2Proof.Machine

/-! ### Bodies -/

theorem accessFits_of_askOk (a : Ask) (h : AskOk a) : accessFits a.space a.address a.count = true := by
  obtain ⟨h1, h2, h3, h4⟩ := h
  rcases h3 with ⟨e, h⟩ | ⟨e, h5, h6, h7⟩
  · simp [accessFits, e]; omega
  · simp [accessFits, e]; omega

theorem askBody_length (a : Ask) : (askBody a).length = 6 + (a.data.getD []).length := by
  simp [askBody]; omega

theorem data_length_le (a : Ask) (h : AskOk a) : (a.data.getD []).length ≤ 32 := by
  obtain ⟨h1, h2, h3, h4⟩ := h
  rcases h4 with ⟨-, h⟩ | ⟨-, h⟩
  · simp [h]
  · cases hd : a.data with
    | none => simp
    | some d => simp [hd] at h ⊢; omega

theorem parseAsk_askBody (a : Ask) (h : AskOk a) : parseAsk a.kind a.requester (askBody a) = some a := by
  have hl := askBody_length a
  have hf := accessFits_of_askOk a h
  obtain ⟨h1, h2, h3, h4⟩ := h
  have e0 : byteAt (askBody a) 0 = a.space.code := spaceByte_eq_code a.space
  have e1 : byteAt (askBody a) 1 = byteOf a.count := rfl
  have e2 : fieldAt (askBody a) 2 4 = a.address := by
    show numberOf (fieldOf 4 a.address) = _
    exact numberOf_fieldOf _ _ (by omega)
  have e3 : (askBody a).drop 6 = a.data.getD [] := rfl
  have hc : (byteOf a.count).toNat = a.count := byteOf_toNat _ (by omega)
  have : ¬ (askBody a).length < 6 := by omega
  simp only [parseAsk, this, e0, e1, e2, e3, hc, Space.ofCode_code, hf, if_true, if_false]
  obtain ⟨r, k, sp, ad, c, d⟩ := a
  rcases h4 with ⟨rfl, rfl⟩ | ⟨rfl, h⟩
  · rfl
  · cases d with
    | none => simp at h
    | some d => simp at h; simp [h]

/-- An ask that R53 admits reaches the blocks while the port is RUNNING. -/
theorem exec_arrival (s : State) (a : Ask) (hr : Running s) (h : AskOk a) :
    exec (arrival a) s = .next ((s.access a).1.answer a.requester (s.access a).2) := by
  have hl := askBody_length a
  have hd := data_length_le a h
  have hp := parseAsk_askBody a h
  have key : ∀ k, k = a.kind → accessAtPort k (header a.requester (askBody a).length) (askBody a) s = (s.access a).1.answer a.requester (s.access a).2 := by
    rintro k rfl
    unfold accessAtPort
    rw [atPort_running _ _ _ _ _ hr.1 (sender_header _ _) hr.2 (headerOk_header _ _ (by omega)), hp]
  unfold arrival
  cases hk : a.kind with
  | read => exact congrArg _ (key .read hk.symm)
  | write => exact congrArg _ (key .write hk.symm)

theorem io_word_iff (a c : Nat) (h : 1 ≤ c) : a % 4 + c ≤ 4 ↔ c ≤ 4 ∧ a / 4 = (a + c - 1) / 4 := by omega

theorem bodyOk_read (b : List Byte) : BodyOk 0x01 b ↔ b.length = 6 ∧ AccessFieldsOk b := by
  unfold BodyOk
  constructor
  · rintro (h | h | h | h)
    · exact ⟨h.2.1, h.2.2⟩
    all_goals exact absurd h.1 (by decide)
  · intro h; exact .inl ⟨rfl, h.1, h.2⟩

theorem bodyOk_write (b : List Byte) : BodyOk 0x02 b ↔ b.length = 6 + (b.getD 1 0).toNat ∧ AccessFieldsOk b := by
  unfold BodyOk
  constructor
  · rintro (h | h | h | h)
    · exact absurd h.1 (by decide)
    · exact ⟨h.2.1, h.2.2⟩
    all_goals exact absurd h.1 (by decide)
  · intro h; exact .inr (.inl ⟨rfl, h.1, h.2⟩)

theorem bodyOk_manage (b : List Byte) : BodyOk 0x03 b ↔ 1 ≤ b.length ∧ b.length ≤ 25 := by
  unfold BodyOk
  constructor
  · rintro (h | h | h | h)
    · exact absurd h.1 (by decide)
    · exact absurd h.1 (by decide)
    · exact h.2
    all_goals exact absurd h.1 (by decide)
  · intro h; exact .inr (.inr (.inl ⟨rfl, h.1, h.2⟩))

theorem bodyOk_ack (b : List Byte) : BodyOk 0x04 b ↔ b.length = 1 := by
  unfold BodyOk
  constructor
  · rintro (h | h | h | h)
    · exact absurd h.1 (by decide)
    · exact absurd h.1 (by decide)
    · exact absurd h.1 (by decide)
    · exact h.2
  · intro h; exact .inr (.inr (.inr ⟨rfl, h⟩))

theorem bodyOk_other (k : Byte) (b : List Byte) (h1 : k ≠ 0x01) (h2 : k ≠ 0x02) (h3 : k ≠ 0x03) (h4 : k ≠ 0x04) : ¬ BodyOk k b := by
  rintro (h | h | h | h)
  · exact h1 h.1
  · exact h2 h.1
  · exact h3 h.1
  · exact h4 h.1

theorem accessFieldsOk_iff (body : List Byte) : AccessFieldsOk body ↔ ∃ sp, Space.ofCode (byteAt body 0) = some sp ∧ accessFits sp (fieldAt body 2 4) (byteAt body 1).toNat = true := by
  unfold AccessFieldsOk
  dsimp only
  show (byteAt body 0 = _ ∧ 1 ≤ (byteAt body 1).toNat ∧ (byteAt body 1).toNat ≤ 32 ∨ byteAt body 0 = _ ∧ 1 ≤ (byteAt body 1).toNat ∧ (byteAt body 1).toNat ≤ 4 ∧ _ ∧ fieldAt body 2 4 / 4 = (fieldAt body 2 4 + (byteAt body 1).toNat - 1) / 4) ↔ _
  generalize (byteAt body 1).toNat = c
  generalize fieldAt body 2 4 = a
  generalize byteAt body 0 = b
  constructor
  · rintro (⟨rfl, h1, h2⟩ | ⟨rfl, h1, h2, h3, h4⟩)
    · exact ⟨.memory, rfl, by simp [accessFits, h1, h2]⟩
    · refine ⟨.io, rfl, ?_⟩
      simp only [accessFits, Bool.and_eq_true, decide_eq_true_eq]
      exact ⟨⟨⟨h1, h2⟩, h3⟩, (io_word_iff _ _ h1).2 ⟨h2, h4⟩⟩
  · rintro ⟨sp, hs, hf⟩
    unfold Space.ofCode at hs
    split at hs
    · cases hs; rename_i hb; simp [accessFits] at hf; exact .inl ⟨hb, hf.1, hf.2⟩
    · split at hs
      · cases hs; rename_i hb
        simp only [accessFits, Bool.and_eq_true, decide_eq_true_eq] at hf
        obtain ⟨⟨⟨h1, h2⟩, h3⟩, h4⟩ := hf
        exact .inr ⟨hb, h1, h2, h3, ((io_word_iff _ _ h1).1 h4).2⟩
      · cases hs

/-- The message kind of a READ or WRITE. -/
def kindByte : AccessKind → Byte
  | .read => 0x01
  | .write => 0x02

/-- A body reads as an ask exactly where it is not malformed. -/
theorem parseAsk_iff (k : AccessKind) (r : Requester) (body : List Byte) :
  (parseAsk k r body).isSome = true ↔ BodyOk (kindByte k) body := by
  have hb : BodyOk (kindByte k) body ↔ body.length = 6 + (match k with | .read => 0 | .write => (byteAt body 1).toNat) ∧ AccessFieldsOk body := by
    cases k
    · exact bodyOk_read body
    · exact bodyOk_write body
  rw [hb, accessFieldsOk_iff]
  unfold parseAsk
  by_cases hl : body.length < 6
  · rw [if_pos hl]; simp; omega
  · rw [if_neg hl]
    have hd : (body.drop 6).length = body.length - 6 := by simp
    have hd2 : body.drop 6 = [] ↔ body.length = 6 := by
      rw [← List.length_eq_zero_iff, hd]; omega
    cases hs : Space.ofCode (byteAt body 0) with
    | none => simp
    | some sp =>
      dsimp only
      by_cases hf : accessFits sp (fieldAt body 2 4) (byteAt body 1).toNat = true
      · rw [if_pos hf]
        have : (∃ sp', some sp = some sp' ∧ accessFits sp' (fieldAt body 2 4) (byteAt body 1).toNat = true) := ⟨sp, rfl, hf⟩
        cases k
        · dsimp only; simp only [hd2]; split <;> simp_all
        · dsimp only
          have e : (body.drop 6).length = (byteAt body 1).toNat ↔ body.length = 6 + (byteAt body 1).toNat := by rw [hd]; omega
          by_cases hq : (body.drop 6).length = (byteAt body 1).toNat
          · rw [if_pos hq]; exact ⟨fun _ => ⟨e.1 hq, this⟩, fun _ => rfl⟩
          · rw [if_neg hq]; exact ⟨fun h => by simp at h, fun h => absurd (e.2 h.1) hq⟩
      · rw [if_neg hf]
        constructor
        · intro h; simp at h
        · rintro ⟨_, sp', h1, h2⟩; cases h1; exact absurd h2 hf

/-! ### Matching -/

theorem isRepeatedBy_iff (e : Entry) (a : Ask) : e.isRepeatedBy a = true ↔ Matches e a := by
  unfold Entry.isRepeatedBy Matches Entry.occupied
  cases hk : a.kind <;> simp [and_assoc]

theorem matching_of_isNew (s : State) (a : Ask) (h : IsNew s a) : s.matching a = none := by
  simp only [State.matching, List.find?_eq_none]
  intro x _ hx
  exact h x ((isRepeatedBy_iff _ _).1 hx)

theorem matching_of_matches (s : State) (a : Ask) (slot : Slot) (hd : SignaturesDistinct s) (h : Matches s.entries[slot] a) :
    s.matching a = some slot := by
  cases hm : s.matching a with
  | none =>
    exfalso
    simp only [State.matching, List.find?_eq_none] at hm
    exact hm slot (by simp [allSlots]) ((isRepeatedBy_iff _ _).2 h)
  | some k =>
    have hk : Matches s.entries[k] a := (isRepeatedBy_iff _ _).1 (by have := List.find?_some hm; exact this)
    by_contra hne
    have hne : k ≠ slot := fun e => hne (by rw [e])
    have := hd k slot hne (by simp [-Fin.getElem_fin, Entry.occupied, hk.1]) (by simp [-Fin.getElem_fin, Entry.occupied, h.1]) hk.2.1 h.2.1
    obtain ⟨a1, a2, a3, a4, a5, a6, a7, a8⟩ := h
    obtain ⟨b1, b2, b3, b4, b5, b6, b7, b8⟩ := hk
    have : sameAsk s.entries[k] s.entries[slot] = true := by
      unfold sameAsk
      rw [a3, b3, a4, b4, a5, b5, a6, b6, a7, b7]
      cases hk : a.kind <;> simp [-Fin.getElem_fin]
      rw [a8 hk, b8 hk]
    simp_all

theorem delivery_of_delivers (e : Entry) (ans) (hdel : Delivers e ans) : e.delivery = ans := by
  obtain ⟨st, r, k, sp, ad, c, wd, ro, sg, dn, ap, orp, o, rd, di⟩ := e
  unfold Delivers at hdel
  dsimp only at hdel
  rcases hdel with ⟨rfl, rfl, h3⟩ | ⟨rfl, rfl, rfl⟩ | ⟨rfl, rfl, rfl, rfl⟩ | ⟨rfl, rfl, rfl, rfl⟩ | ⟨rfl, rfl, rfl⟩ | ⟨rfl, rfl⟩ | ⟨rfl, rfl⟩ | ⟨rfl, rfl⟩ 
  · cases rd with
    | none => simp at h3
    | some d => simp at h3; subst h3; rfl
  all_goals rfl

/-! ### Lookup and checks -/

theorem holds_iff (s : State) (a : Ask) (w : WindowNumber) : s.windows[w].holds a.space a.address = true ↔ Hits s a w := by
  simp [-Fin.getElem_fin, Window.holds, Window.visible, Hits, and_assoc]

theorem hit_of_misses (s : State) (a : Ask) (h : Misses s a) : s.hit a.space a.address = none := by
  simp only [State.hit, List.find?_eq_none]
  intro x _ hx
  exact h x ((holds_iff s a x).1 hx)

theorem hit_of_hits (s : State) (a : Ask) (w : WindowNumber) (ht : WindowTableOk s) (h : Hits s a w) :
    s.hit a.space a.address = some w := by
  cases hm : s.hit a.space a.address with
  | none =>
    exfalso
    simp only [State.hit, List.find?_eq_none] at hm
    exact hm w (by simp [allWindows]) ((holds_iff s a w).2 h)
  | some k =>
    have hk : Hits s a k := (holds_iff s a k).1 (by have := List.find?_some hm; exact this)
    by_contra hne
    have hne : k ≠ w := fun e => hne (by rw [e])
    have := ht.disjoint k w hne (by simp [-Fin.getElem_fin, Window.visible, hk.1]) (by simp [-Fin.getElem_fin, Window.visible, h.1])
    have t : s.windows[k].overlaps s.windows[w] = true := by
      simp only [Window.overlaps, Bool.and_eq_true, decide_eq_true_eq]
      exact ⟨⟨by rw [hk.2.1, h.2.1], by have := hk.2.2; have := h.2.2; omega⟩, by have := hk.2.2; have := h.2.2; omega⟩
    simp_all

theorem refuses_of_proceeds (e : Engine) (h : Proceeds e) : e.refuses = none := by
  rcases h with h | ⟨h, h'⟩ <;> simp [Engine.refuses, *]

theorem refuses_of_segmentRefuses (e : Engine) (c) (h : SegmentRefuses e c) : e.refuses = some c := by
  rcases h with ⟨h | ⟨h, h'⟩, rfl⟩ | ⟨h, rfl⟩ <;> simp [Engine.refuses, *]

theorem admits_iff (w : Window) (r) : Admits w r ↔ ¬(w.owners ≠ [] ∧ r ∉ w.owners) := by
  unfold Admits; tauto

theorem access_of_answered (s : State) (a : Ask) (hn : IsNew s a) (ans) (hd : s.decode a = .answered ans) : s.access a = (s, ans) := by
  simp [State.access, matching_of_isNew s a hn, State.newAsk, hd]

theorem touchesWindow_iff (s : State) (a : Ask) : s.touchesWindow a = true ↔ RunsIntoWindow s a := by
  simp only [State.touchesWindow, allWindows, Window.visible, List.any_eq_true, List.mem_finRange, true_and, Bool.and_eq_true, decide_eq_true_eq, and_assoc, RunsIntoWindow]
  rfl

theorem defaultRoute_eq (v : Settings) (sp) : v.defaultRoute sp = routeSetting v sp := by cases sp <;> rfl

theorem segmentMaximum_eq (sp : Space) : sp.segmentMaximum = addressMaximum sp := by cases sp <;> rfl

/-! ### Hand-off -/

/-- The hand-off of an ask that passes decode with a target. -/
def handOffOf (a : Ask) (x : Target) : HandOff := ⟨a, x.posted, x.route, x.segment, x.downstream, x.absentPolicy⟩

theorem decode_of_passes (s : State) (a : Ask) (x : Target) (ht : WindowTableOk s) (h : Passes s a x) :
    s.decode a = .handedOff (handOffOf a x) := by
  rcases h with ⟨w, hh, hl, hs, ho, hf, hp, rfl⟩ | ⟨hm, hr, hl, ht, hp, hx⟩
  · simp only [State.decode, hit_of_hits s a w ht hh, State.decodeHit]
    have : ¬ s.windows[w].limit < a.last := Nat.not_lt.2 hl
    rw [if_neg this, if_neg (by simp [-Fin.getElem_fin, hs]), if_neg (by rw [admits_iff] at ho; exact ho), if_neg (by simp [-Fin.getElem_fin, hf]), refuses_of_proceeds _ hp]
    rfl
  · simp only [State.decode, hit_of_misses s a hm, State.decodeMiss, defaultRoute_eq, hr, segmentMaximum_eq]
    rw [if_neg (show ¬ _ < a.last from Nat.not_lt.2 hl), if_neg (by rw [touchesWindow_iff]; exact ht), refuses_of_proceeds _ hp]
    rw [hx]
    simp [handOffOf, Ask.isPosted]

theorem access_of_passes (s : State) (a : Ask) (x : Target) (ht : WindowTableOk s) (hn : IsNew s a) (h : Passes s a x) :
    s.access a = s.accept (handOffOf a x) := by
  simp [State.access, matching_of_isNew s a hn, State.newAsk, decode_of_passes s a x ht h]

theorem quotaCount_eq (s : State) (r) : s.quotaCount r = quotaHeld s r := by
  unfold State.quotaCount quotaHeld allSlots
  rw [List.countP_eq_length_filter]
  rw [← List.toFinset_card_of_nodup ((List.nodup_finRange 16).filter _)]
  congr 1
  ext x
  simp [-Fin.getElem_fin, HoldsQuota, Entry.occupied, and_assoc]

end Sys2Proof.Safety
end

