-- ==== Sys2Proof/Laws/Cycles.lean ====
section
/-! SUPPORT. The division of an item at width 16, the bytes that a cycle takes from its lanes (R115–R117), the start of a cycle, and the
cycle that a target's signal ends (R118). -/

namespace Sys2Proof.Machine

/-! ### Which cycle a signal answers -/

theorem answeredCycle_none (s : State) (answered : CycleName)
    (h : ∀ x, s.engines[answered.segment].current = some x → x.number ≠ answered.number) : s.answeredCycle answered = none := by
  unfold State.answeredCycle
  cases hc : s.engines[answered.segment].current with
  | none => rfl
  | some x => simp [Option.filter, h x hc]

theorem answeredCycle_some (s : State) (answered : CycleName) (x : RunningCycle)
    (hx : s.engines[answered.segment].current = some x) (hn : x.number = answered.number) :
    s.answeredCycle answered = some x := by
  simp [State.answeredCycle, -Fin.getElem_fin, hx, hn]

/-- A signal for a cycle that is not current, or not any more, is disregarded (R118, R130, R134, R179). -/
theorem acknowledge_late (s : State) (answered : CycleName) (data : BitVec 16)
    (h : ∀ x, s.engines[answered.segment].current = some x → x.number ≠ answered.number) : s.acknowledge answered data = s := by
  simp only [State.acknowledge, answeredCycle_none s answered h]

theorem errCycle_late (s : State) (answered : CycleName)
    (h : ∀ x, s.engines[answered.segment].current = some x → x.number ≠ answered.number) : s.errCycle answered = s := by
  simp only [State.errCycle, answeredCycle_none s answered h]

/-! ### Starting a cycle -/

/-- What a start does, for any list: the engine has the head as its current cycle, under the next number, and the tail left. -/
theorem startCycle_eq (s : State) (n : SegmentNumber) (e : Engine) (cycles : List Cycle) :
    s.startCycle n e cycles
      = { s.setEngine n
            { e with
              current := cycles.head?.map fun c =>
                ⟨c, Timer.start Config.cycleUnit s.settings.segments[n].cycleTimeout, s.cyclesStarted⟩
              remaining := cycles.tail } with
          cyclesStarted := s.cyclesStarted + if cycles = [] then 0 else 1 } := by
  cases cycles <;> rfl

end Sys2Proof.Machine

namespace Sys2Proof.Safety

open Sys2Proof.Machine

/-- The cycles from an even address: their number, their addresses, their lanes and their data. -/
theorem wordCycles_division (j : Job) (n a : Nat) (d : List Byte) (ha : a % 2 = 0) :
   (wordCycles j n a d).length = n / 2 + n % 2
   ∧ (wordCycles j n a d).flatMap cycleAddresses = (List.range n).map (fun k => a + k)
   ∧ (∀ c ∈ wordCycles j n a d, c.space = j.space ∧ c.kind = j.kind ∧ c.lanes ≠ .high ∧ c.address % 2 = 0)
   ∧ (d.length = n → (wordCycles j n a d).flatMap Cycle.data = d ∧ ∀ c ∈ wordCycles j n a d, c.data.length = (cycleAddresses c).length) := by
  induction n using Nat.twoStepInduction generalizing a d with
  | zero => refine ⟨rfl, rfl, by simp [wordCycles], fun h => ?_⟩; simp at h; subst h; simp [wordCycles]
  | one =>
    refine ⟨rfl, rfl, by simp [wordCycles, ha], fun h => ?_⟩
    match d, h with
    | [x], _ => simp [wordCycles, cycleAddresses]
  | more n ih _ =>
    obtain ⟨h1, h2, h3, h4⟩ := ih (a + 2) (d.drop 2) (by omega)
    refine ⟨?_, ?_, ?_, fun h => ?_⟩
    · simp [wordCycles, h1]; omega
    · rw [List.range_succ_eq_map, List.range_succ_eq_map]
      simp [wordCycles, h2, cycleAddresses]
      intro x _; omega
    · simp only [wordCycles, List.mem_cons]
      rintro c (rfl | hc)
      · simp [ha]
      · exact h3 c hc
    · obtain ⟨k1, k2⟩ := h4 (by simp [h])
      refine ⟨by simp only [wordCycles, List.flatMap_cons, k1]; exact List.take_append_drop 2 d, ?_⟩
      simp only [wordCycles, List.mem_cons]
      rintro c (rfl | hc)
      · simp [cycleAddresses]; omega
      · exact k2 c hc

theorem lanes_bytes_eq (l : Lanes) (d : BitVec 16) : l.bytes d = laneBytes l d := by
  have h1 : d.extractLsb' 0 8 = byteOf (d.toNat % 256) := by
    apply BitVec.eq_of_toNat_eq; simp [byteOf]
  have h2 : d.extractLsb' 8 8 = byteOf (d.toNat / 256) := by
    apply BitVec.eq_of_toNat_eq; simp [byteOf, Nat.shiftRight_eq_div_pow]
  cases l <;> simp [Lanes.bytes, laneBytes, h1, h2]

theorem taken_eq (c : Cycle) (d) : c.taken d = returned c d := by
  unfold Cycle.taken returned; cases c.kind <;> simp [lanes_bytes_eq]

end Sys2Proof.Safety
end

