-- ==== Sys2Proof/Laws/Messages.lean ====
section
/-! SUPPORT. How a received message reaches its meaning: the cut of its header, and the command that each code runs (R171, R175). -/

namespace Sys2Proof.Safety

open Sys2Proof.Machine

/-! ### Headers -/

theorem splitHeader_bytes (r : List Byte) : (splitHeader r).1.bytes ++ (splitHeader r).2 = r ∧ (splitHeader r).1.fits (splitHeader r).2 = true := by
  match r with
  | [] => decide
  | [a] => simp [splitHeader, Header.bytes, Header.fits]
  | [a,b] => simp [splitHeader, Header.bytes, Header.fits]
  | a :: b :: c :: r => simp [splitHeader, Header.bytes, Header.fits]

theorem splitHeader_spelled (h : Header) (b : List Byte) (hf : h.fits b = true) : splitHeader (h.bytes ++ b) = (h, b) := by
  cases h with
  | whole a b c => rfl
  | cut l =>
    simp [Header.fits] at hf
    obtain ⟨hl, rfl⟩ := hf
    match l, hl with
    | [], _ => rfl
    | [a], _ => rfl
    | [a, b], _ => rfl
    | a :: b :: c :: l, hl => simp at hl

theorem fits_of_isWhole (h : Header) (b : List Byte) (hf : h.isWhole = true) : h.fits b = true := by
  cases h <;> simp_all [Header.isWhole, Header.fits]

theorem isWhole_of_body (r : List Byte) (x y) (h : (splitHeader r).2 = x :: y) : (splitHeader r).1.isWhole = true := by
  match r with
  | [] => simp [splitHeader] at h
  | [a] => simp [splitHeader] at h
  | [a,b] => simp [splitHeader] at h
  | a :: b :: c :: r => rfl

/-! ### Command codes -/

/-- Every ask of a command code runs one command of the block that owns it. -/
def RunsCommand (code : Byte) (c : List Byte → Command) : Prop := ∀ h ops s, exec (ofCommandCode h code ops) s = .next (manage h ops (c ops) s)

theorem runs_10h : RunsCommand 0x10 openCommand := by
  intro h ops s
  rfl

theorem runs_11h : RunsCommand 0x11 amendCommand := by
  intro h ops s
  rfl

theorem runs_12h : RunsCommand 0x12 renewCommand := by
  intro h ops s
  rfl

theorem runs_13h : RunsCommand 0x13 freezeCommand := by
  intro h ops s
  rfl

theorem runs_14h : RunsCommand 0x14 closeCommand := by
  intro h ops s
  have : ofCommandCode h 0x14 ops = if abandonBit ops then .closeWithAbandon h ops else .close h ops := rfl
  rw [this]; cases abandonBit ops <;> rfl

theorem runs_15h : RunsCommand 0x15 queryCommand := by
  intro h ops s
  rfl

theorem runs_16h : RunsCommand 0x16 lookupCommand := by
  intro h ops s
  rfl

theorem runs_20h : RunsCommand 0x20 bringOnlineCommand := by
  intro h ops s
  rfl

theorem runs_21h : RunsCommand 0x21 takeOfflineCommand := by
  intro h ops s
  rfl

theorem runs_22h : RunsCommand 0x22 resumeCommand := by
  intro h ops s
  rfl

theorem runs_23h : RunsCommand 0x23 resetSegmentCommand := by
  intro h ops s
  rfl

theorem runs_24h : RunsCommand 0x24 segmentStatusCommand := by
  intro h ops s
  rfl

theorem runs_30h : RunsCommand 0x30 pendingStatusCommand := by
  intro h ops s
  rfl

theorem runs_31h : RunsCommand 0x31 cancelRequesterCommand := by
  intro h ops s
  rfl

theorem runs_40h : RunsCommand 0x40 resumeNoticesCommand := by
  intro h ops s
  rfl

theorem runs_41h : RunsCommand 0x41 noticeStatusCommand := by
  intro h ops s
  rfl

theorem runs_50h : RunsCommand 0x50 readSettingCommand := by
  intro h ops s
  rfl

theorem runs_51h : RunsCommand 0x51 writeSettingCommand := by
  intro h ops s
  show exec (ofWriteSetting h ops) s = _
  cases ops with
  | nil => rfl
  | cons c rest =>
    simp only [ofWriteSetting]
    split_ifs with h1 h2 h3
    · subst h1; rfl
    · subst h2; rfl
    · subst h3; rfl
    · rfl

theorem runs_52h : RunsCommand 0x52 identifyCommand := by
  intro h ops s
  rfl

theorem runs_53h : RunsCommand 0x53 warmResetCommand := by
  intro h ops s
  rfl

/-- A command code runs a command, or it is unknown. -/
theorem ofCommandCode_cases (code : Byte) : (∃ c, RunsCommand code c) ∨ ∀ h ops, ofCommandCode h code ops = .unknownCommand h (code :: ops) := by
  by_cases h10 : code = 0x10
  · subst h10; exact .inl ⟨_, runs_10h⟩
  by_cases h11 : code = 0x11
  · subst h11; exact .inl ⟨_, runs_11h⟩
  by_cases h12 : code = 0x12
  · subst h12; exact .inl ⟨_, runs_12h⟩
  by_cases h13 : code = 0x13
  · subst h13; exact .inl ⟨_, runs_13h⟩
  by_cases h14 : code = 0x14
  · subst h14; exact .inl ⟨_, runs_14h⟩
  by_cases h15 : code = 0x15
  · subst h15; exact .inl ⟨_, runs_15h⟩
  by_cases h16 : code = 0x16
  · subst h16; exact .inl ⟨_, runs_16h⟩
  by_cases h20 : code = 0x20
  · subst h20; exact .inl ⟨_, runs_20h⟩
  by_cases h21 : code = 0x21
  · subst h21; exact .inl ⟨_, runs_21h⟩
  by_cases h22 : code = 0x22
  · subst h22; exact .inl ⟨_, runs_22h⟩
  by_cases h23 : code = 0x23
  · subst h23; exact .inl ⟨_, runs_23h⟩
  by_cases h24 : code = 0x24
  · subst h24; exact .inl ⟨_, runs_24h⟩
  by_cases h30 : code = 0x30
  · subst h30; exact .inl ⟨_, runs_30h⟩
  by_cases h31 : code = 0x31
  · subst h31; exact .inl ⟨_, runs_31h⟩
  by_cases h40 : code = 0x40
  · subst h40; exact .inl ⟨_, runs_40h⟩
  by_cases h41 : code = 0x41
  · subst h41; exact .inl ⟨_, runs_41h⟩
  by_cases h50 : code = 0x50
  · subst h50; exact .inl ⟨_, runs_50h⟩
  by_cases h51 : code = 0x51
  · subst h51; exact .inl ⟨_, runs_51h⟩
  by_cases h52 : code = 0x52
  · subst h52; exact .inl ⟨_, runs_52h⟩
  by_cases h53 : code = 0x53
  · subst h53; exact .inl ⟨_, runs_53h⟩
  simp only [BitVec.ofNat_eq_ofNat] at h10 h11 h12 h13 h14 h15 h16 h20 h21 h22 h23 h24 h30 h31 h40 h41 h50 h51 h52 h53
  exact .inr fun h ops => by simp [ofCommandCode, *]

end Sys2Proof.Safety
end

