-- ==== Sys2Proof/Laws/Operands.lean ====
section
/-! SUPPORT. What the operand forms read: each block of the statements is read back as its operands, a block that reads is the block of its operands, and a setting's code, segment and value go both ways (R175–R178). -/

namespace Sys2Proof.Safety

open Sys2Proof.Machine

/-! ### Numbers of windows, segments, slots and requesters -/

theorem windowOperand_byteOf (w : WindowNumber) (rest) : windowOperand (byteOf w.val :: rest) = .ok w := by
  simp [windowOperand, byteOf]

theorem parseWindow_byteOf (w : WindowNumber) : parseWindow [byteOf w.val] = .ok w := by
  simp [parseWindow, windowOperand_byteOf]

theorem parseSegment_byteOf (n : SegmentNumber) : parseSegment [byteOf n.val] = .ok n := by
  have : segmentOf (byteOf n.val) = some n := segmentOf_ofNat n
  simp [parseSegment, this]

theorem parsePendingStatus_byteOf (n : Slot) : parsePendingStatus [byteOf n.val] = .ok (some n) := by
  revert n; decide

theorem byteOf_of_windowOf (b : Byte) (x) (h : windowOf b = some x) : b = byteOf x.val := by
  unfold windowOf at h; split at h
  · cases h; apply BitVec.eq_of_toNat_eq; simp [byteOf]
  · cases h

theorem byteOf_of_segmentOf (b : Byte) (x) (h : segmentOf b = some x) : b = byteOf x.val := by
  unfold segmentOf at h; split at h
  · cases h; apply BitVec.eq_of_toNat_eq; simp [byteOf]
  · cases h

theorem byteOf_of_requesterOperand (b : Byte) (x) (h : requesterOperand b = some x) : b = byteOf x.val := by
  unfold requesterOperand at h; split at h
  · cases h; apply BitVec.eq_of_toNat_eq; simp [byteOf]
  · cases h

theorem space_of_ofCode (b : Byte) (x) (h : Space.ofCode b = some x) : b = spaceByte x := by
  rw [spaceByte_eq_code]
  unfold Space.ofCode at h; split at h
  · rename_i hb; cases h; exact hb
  · split at h
    · rename_i hb; cases h; exact hb
    · cases h

theorem writePolicy_of_ofCode (b : Byte) (x) (h : WritePolicy.ofCode b = some x) : b = writePolicyByte x := by
  rw [writePolicyByte_eq_code]
  unfold WritePolicy.ofCode at h; split at h
  · rename_i hb; cases h; exact hb
  · split at h
    · rename_i hb; cases h; exact hb
    · cases h

theorem absentPolicy_of_ofCode (b : Byte) (x) (h : AbsentPolicy.ofCode b = some x) : b = absentPolicyByte x := by
  rw [absentPolicyByte_eq_code]
  unfold AbsentPolicy.ofCode at h; split at h
  · rename_i hb; cases h; exact hb
  · split at h
    · rename_i hb; cases h; exact hb
    · cases h

/-! ### Owner lists -/

theorem requestersOf_map (l : List Requester) : requestersOf (l.map fun r => byteOf r.val) = some l := by
  induction l with
  | nil => rfl
  | cons x xs ih =>
    have : requesterOperand (byteOf x.val) = some x := requesterOperand_ofNat x
    simp only [List.map_cons, requestersOf, ih, this]

theorem ownersOf_ownerField (l : List Requester) (h : l.length ≤ 4) : ownersOf (byteOf l.length) (ownerField l) = some l := by
  match l, h with
  | [], _ => simp [ownersOf, ownerField, byteOf, requestersOf]
  | [a], _ => simp [ownersOf, ownerField, byteOf, requestersOf]
  | [a, b], _ => simp [ownersOf, ownerField, byteOf, requestersOf]
  | [a, b, c], _ => simp [ownersOf, ownerField, byteOf, requestersOf]
  | [a, b, c, d], _ => simp [ownersOf, ownerField, byteOf, requestersOf]
  | a :: b :: c :: d :: e :: l, h => simp at h; omega

theorem requestersOf_some (l : List Byte) (rs) (h : requestersOf l = some rs) : l = rs.map fun r => byteOf r.val := by
  induction l generalizing rs with
  | nil => cases h; rfl
  | cons b bs ih =>
    simp only [requestersOf] at h
    split at h
    · rename_i r rs' h1 h2; cases h; rw [List.map_cons, ← ih _ h2, byteOf_of_requesterOperand _ _ h1]
    · cases h

theorem ownersOf_some (c a0 a1 a2 a3 : Byte) (rs) (h : ownersOf c [a0, a1, a2, a3] = some rs) : rs.length ≤ 4 ∧ c = byteOf rs.length ∧ [a0, a1, a2, a3] = ownerField rs := by
  unfold ownersOf at h
  split at h
  · rename_i hc
    have hm := requestersOf_some _ _ h
    have hl : rs.length = c.toNat := by
      have := congrArg List.length hm; simp at this; omega
    refine ⟨by omega, by apply BitVec.eq_of_toNat_eq; rw [hl]; simp [byteOf], ?_⟩
    obtain ⟨h4, hz⟩ := hc
    rw [← hl] at hm hz h4
    match rs, h4 with
    | [], _ => simpa [ownerField] using hz
    | [a], _ => simp [ownerField] at hm hz ⊢; exact ⟨hm, hz⟩
    | [a, b], _ => simp [ownerField] at hm hz ⊢; exact ⟨hm.1, hm.2, hz⟩
    | [a, b, c], _ => simp [ownerField] at hm hz ⊢; exact ⟨hm.1, hm.2.1, hm.2.2, hz⟩
    | [a, b, c, d], _ => simp [ownerField] at hm ⊢; exact hm
    | a :: b :: c :: d :: e :: l, h => simp at h; omega
  · cases h

/-! ### Fields -/

theorem fieldOf_four (a b c d : Byte) : fieldOf 4 (numberOf [a, b, c, d]) = [a, b, c, d] := fieldOf_numberOf [a, b, c, d]

theorem fieldOf_two (a b : Byte) : fieldOf 2 (numberOf [a, b]) = [a, b] := fieldOf_numberOf [a, b]

theorem numberOf_four_le (a b c d : Byte) : numberOf [a, b, c, d] ≤ 0xFFFFFFFF := by have := numberOf_lt [a, b, c, d]; simp at this; omega

theorem numberOf_two_le (a b : Byte) : numberOf [a, b] ≤ 65535 := by have := numberOf_lt [a, b]; simp at this; omega

/-! ### OPEN -/

theorem openBlock_length (o : OpenOperands) : (openBlock o).length = 24 := by simp [openBlock, ownerField]

theorem openWindowOperand_openBlock (o : OpenOperands) : openWindowOperand (openBlock o) = .ok o.window := by
  have h : openWindowOperand (openBlock o) = openWindowOperand [(o.window.map fun w => byteOf w.val).getD 0xFF] := rfl
  rw [h]
  cases hw : o.window with
  | none => rfl
  | some w =>
    have : byteOf w.val ≠ 0xFF := (by decide : ∀ w : WindowNumber, byteOf w.val ≠ 0xFF) w
    have k : windowOf (byteOf w.val) = some w := windowOf_ofNat w
    simp only [openWindowOperand, Option.map_some, Option.getD_some, if_neg this, k]

theorem parseOpen_openBlock (o : OpenOperands) (h : OpenEncodable o) : parseOpen (openBlock o) = .ok o := by
  obtain ⟨h1, h2, h3, h4, h5⟩ := h
  simp only [parseOpen, openWindowOperand_openBlock, openBlock_length, if_true]
  have e1 : byteAt (openBlock o) 1 = o.space.code := spaceByte_eq_code o.space
  have e2 : byteAt (openBlock o) 2 = byteOf o.segment.val := rfl
  have e3 : byteAt (openBlock o) 3 = o.writePolicy.code := writePolicyByte_eq_code o.writePolicy
  have e4 : byteAt (openBlock o) 4 = o.absentPolicy.code := absentPolicyByte_eq_code o.absentPolicy
  have e5 : byteAt (openBlock o) 5 = byteOf o.owners.length := rfl
  have e6 : ((openBlock o).drop 6).take 4 = ownerField o.owners := rfl
  have f1 : fieldAt (openBlock o) 10 2 = o.lease := by
    show numberOf (fieldOf 2 o.lease) = _
    exact numberOf_fieldOf _ _ (by omega)
  have f2 : fieldAt (openBlock o) 12 4 = o.base := by
    show numberOf (fieldOf 4 o.base) = _
    exact numberOf_fieldOf _ _ (by omega)
  have f3 : fieldAt (openBlock o) 16 4 = o.limit := by
    show numberOf (fieldOf 4 o.limit) = _
    exact numberOf_fieldOf _ _ (by omega)
  have f4 : fieldAt (openBlock o) 20 4 = o.segmentBase := by
    show numberOf (fieldOf 4 o.segmentBase) = _
    exact numberOf_fieldOf _ _ (by omega)
  simp only [e1, e2, e3, e4, e5, e6, f1, f2, f3, f4, ownersOf_ownerField _ h1, Space.ofCode_code, WritePolicy.ofCode_code, AbsentPolicy.ofCode_code]
  have : segmentOf (byteOf o.segment.val) = some o.segment := segmentOf_ofNat _
  simp [this]

/-- A block that OPEN reads is the block of the operands it reads. -/
theorem parseOpen_ok (b : List Byte) (o) (h : parseOpen b = .ok o) : OpenEncodable o ∧ b = openBlock o := by
  unfold parseOpen at h
  split at h
  · cases h
  · rename_i w hw
    split at h
    · rename_i hl
      split at h
      · rename_i sp sg wp ap ow h1 h2 h3 h4 h5
        cases h
        obtain ⟨b0, b, rfl⟩ := List.exists_cons_of_length_eq_add_one (n := 23) hl
        obtain ⟨b1, b, rfl⟩ := List.exists_cons_of_length_eq_add_one (n := 22) (l := b) (by simpa using hl)
        obtain ⟨b2, b, rfl⟩ := List.exists_cons_of_length_eq_add_one (n := 21) (l := b) (by simpa using hl)
        obtain ⟨b3, b, rfl⟩ := List.exists_cons_of_length_eq_add_one (n := 20) (l := b) (by simpa using hl)
        obtain ⟨b4, b, rfl⟩ := List.exists_cons_of_length_eq_add_one (n := 19) (l := b) (by simpa using hl)
        obtain ⟨b5, b, rfl⟩ := List.exists_cons_of_length_eq_add_one (n := 18) (l := b) (by simpa using hl)
        obtain ⟨b6, b, rfl⟩ := List.exists_cons_of_length_eq_add_one (n := 17) (l := b) (by simpa using hl)
        obtain ⟨b7, b, rfl⟩ := List.exists_cons_of_length_eq_add_one (n := 16) (l := b) (by simpa using hl)
        obtain ⟨b8, b, rfl⟩ := List.exists_cons_of_length_eq_add_one (n := 15) (l := b) (by simpa using hl)
        obtain ⟨b9, b, rfl⟩ := List.exists_cons_of_length_eq_add_one (n := 14) (l := b) (by simpa using hl)
        obtain ⟨b10, b, rfl⟩ := List.exists_cons_of_length_eq_add_one (n := 13) (l := b) (by simpa using hl)
        obtain ⟨b11, b, rfl⟩ := List.exists_cons_of_length_eq_add_one (n := 12) (l := b) (by simpa using hl)
        obtain ⟨b12, b, rfl⟩ := List.exists_cons_of_length_eq_add_one (n := 11) (l := b) (by simpa using hl)
        obtain ⟨b13, b, rfl⟩ := List.exists_cons_of_length_eq_add_one (n := 10) (l := b) (by simpa using hl)
        obtain ⟨b14, b, rfl⟩ := List.exists_cons_of_length_eq_add_one (n := 9) (l := b) (by simpa using hl)
        obtain ⟨b15, b, rfl⟩ := List.exists_cons_of_length_eq_add_one (n := 8) (l := b) (by simpa using hl)
        obtain ⟨b16, b, rfl⟩ := List.exists_cons_of_length_eq_add_one (n := 7) (l := b) (by simpa using hl)
        obtain ⟨b17, b, rfl⟩ := List.exists_cons_of_length_eq_add_one (n := 6) (l := b) (by simpa using hl)
        obtain ⟨b18, b, rfl⟩ := List.exists_cons_of_length_eq_add_one (n := 5) (l := b) (by simpa using hl)
        obtain ⟨b19, b, rfl⟩ := List.exists_cons_of_length_eq_add_one (n := 4) (l := b) (by simpa using hl)
        obtain ⟨b20, b, rfl⟩ := List.exists_cons_of_length_eq_add_one (n := 3) (l := b) (by simpa using hl)
        obtain ⟨b21, b, rfl⟩ := List.exists_cons_of_length_eq_add_one (n := 2) (l := b) (by simpa using hl)
        obtain ⟨b22, b, rfl⟩ := List.exists_cons_of_length_eq_add_one (n := 1) (l := b) (by simpa using hl)
        obtain ⟨b23, b, rfl⟩ := List.exists_cons_of_length_eq_add_one (n := 0) (l := b) (by simpa using hl)
        have hb : b = [] := by simpa using hl
        subst hb
        obtain ⟨o1, o2, o3⟩ := ownersOf_some b5 b6 b7 b8 b9 ow h5
        refine ⟨⟨o1, numberOf_two_le _ _, numberOf_four_le _ _ _ _, numberOf_four_le _ _ _ _, numberOf_four_le _ _ _ _⟩, ?_⟩
        have q0 : b0 = (w.map fun w => byteOf w.val).getD 0xFF := by
          simp only [openWindowOperand] at hw
          split at hw
          · rename_i hh; cases hw; exact hh
          · split at hw
            · rename_i w' hh; cases hw; exact byteOf_of_windowOf _ _ hh
            · cases hw
        have q1 : b1 = spaceByte sp := space_of_ofCode _ _ h1
        have q2 : b2 = byteOf sg.val := byteOf_of_segmentOf _ _ h2
        have q3 : b3 = writePolicyByte wp := writePolicy_of_ofCode _ _ h3
        have q4 : b4 = absentPolicyByte ap := absentPolicy_of_ofCode _ _ h4
        have e1 : fieldAt (b0 :: b1 :: b2 :: b3 :: b4 :: b5 :: b6 :: b7 :: b8 :: b9 :: b10 :: b11 :: b12 :: b13 :: b14 :: b15 :: b16 :: b17 :: b18 :: b19 :: b20 :: b21 :: b22 :: b23 :: []) 10 2 = numberOf [b10, b11] := rfl
        have e2 : fieldAt (b0 :: b1 :: b2 :: b3 :: b4 :: b5 :: b6 :: b7 :: b8 :: b9 :: b10 :: b11 :: b12 :: b13 :: b14 :: b15 :: b16 :: b17 :: b18 :: b19 :: b20 :: b21 :: b22 :: b23 :: []) 12 4 = numberOf [b12, b13, b14, b15] := rfl
        have e3 : fieldAt (b0 :: b1 :: b2 :: b3 :: b4 :: b5 :: b6 :: b7 :: b8 :: b9 :: b10 :: b11 :: b12 :: b13 :: b14 :: b15 :: b16 :: b17 :: b18 :: b19 :: b20 :: b21 :: b22 :: b23 :: []) 16 4 = numberOf [b16, b17, b18, b19] := rfl
        have e4 : fieldAt (b0 :: b1 :: b2 :: b3 :: b4 :: b5 :: b6 :: b7 :: b8 :: b9 :: b10 :: b11 :: b12 :: b13 :: b14 :: b15 :: b16 :: b17 :: b18 :: b19 :: b20 :: b21 :: b22 :: b23 :: []) 20 4 = numberOf [b20, b21, b22, b23] := rfl
        unfold openBlock
        rw [e1, e2, e3, e4]
        dsimp only
        rw [← o3, fieldOf_two, fieldOf_four, fieldOf_four, fieldOf_four, ← q0, ← q1, ← q2, ← q3, ← q4, ← o2]
        rfl
      · cases h
    · cases h

/-! ### AMEND -/

theorem amendBlock_length (o : AmendOperands) : (amendBlock o).length = 22 := by simp [amendBlock, ownerField]

theorem presence_bits (a b c d e f g : Bool) : 
   let p := byteOf (presenceBit 0 a + presenceBit 1 b + presenceBit 2 c + presenceBit 3 d + presenceBit 4 e + presenceBit 5 f + presenceBit 6 g)
   p.getLsbD 0 = a ∧ p.getLsbD 1 = b ∧ p.getLsbD 2 = c ∧ p.getLsbD 3 = d ∧ p.getLsbD 4 = e ∧ p.getLsbD 5 = f ∧ p.getLsbD 6 = g ∧ p.getLsbD 7 = false := by
  revert a b c d e f g; decide

theorem parseAmend_amendBlock (o : AmendOperands) (h : AmendEncodable o) : parseAmend (amendBlock o) = .ok o := by
  obtain ⟨h1, h2, h3, h4⟩ := h
  have hw : windowOperand (amendBlock o) = .ok o.window := by
    have : windowOperand (amendBlock o) = windowOperand (byteOf o.window.val :: []) := rfl
    rw [this, windowOperand_byteOf]
  obtain ⟨q0, q1, q2, q3, q4, q5, q6, q7⟩ := presence_bits o.base.isSome o.limit.isSome o.segment.isSome o.segmentBase.isSome o.writePolicy.isSome o.absentPolicy.isSome o.owners.isSome
  have e1 : byteAt (amendBlock o) 1 = byteOf (presenceBit 0 o.base.isSome + presenceBit 1 o.limit.isSome + presenceBit 2 o.segment.isSome
      + presenceBit 3 o.segmentBase.isSome + presenceBit 4 o.writePolicy.isSome + presenceBit 5 o.absentPolicy.isSome
      + presenceBit 6 o.owners.isSome) := rfl
  have e2 : byteAt (amendBlock o) 2 = (o.segment.map fun n => byteOf n.val).getD 0 := rfl
  have e3 : byteAt (amendBlock o) 3 = (o.writePolicy.map writePolicyByte).getD 0 := rfl
  have e4 : byteAt (amendBlock o) 4 = (o.absentPolicy.map absentPolicyByte).getD 0 := rfl
  have e5 : byteAt (amendBlock o) 5 = byteOf (o.owners.getD []).length := rfl
  have g2 : ((amendBlock o).drop 2).take 1 = [(o.segment.map fun n => byteOf n.val).getD 0] := rfl
  have g3 : ((amendBlock o).drop 3).take 1 = [(o.writePolicy.map writePolicyByte).getD 0] := rfl
  have g4 : ((amendBlock o).drop 4).take 1 = [(o.absentPolicy.map absentPolicyByte).getD 0] := rfl
  have g5 : ((amendBlock o).drop 5).take 5 = byteOf (o.owners.getD []).length :: ownerField (o.owners.getD []) := rfl
  have g6 : ((amendBlock o).drop 6).take 4 = ownerField (o.owners.getD []) := rfl
  have g10 : ((amendBlock o).drop 10).take 4 = fieldOf 4 (o.base.getD 0) := rfl
  have g14 : ((amendBlock o).drop 14).take 4 = fieldOf 4 (o.limit.getD 0) := rfl
  have g18 : ((amendBlock o).drop 18).take 4 = fieldOf 4 (o.segmentBase.getD 0) := rfl
  have f10 : fieldAt (amendBlock o) 10 4 = o.base.getD 0 := by
    show numberOf (((amendBlock o).drop 10).take 4) = _
    rw [g10]; exact numberOf_fieldOf _ _ (by omega)
  have f14 : fieldAt (amendBlock o) 14 4 = o.limit.getD 0 := by
    show numberOf (((amendBlock o).drop 14).take 4) = _
    rw [g14]; exact numberOf_fieldOf _ _ (by omega)
  have f18 : fieldAt (amendBlock o) 18 4 = o.segmentBase.getD 0 := by
    show numberOf (((amendBlock o).drop 18).take 4) = _
    rw [g18]; exact numberOf_fieldOf _ _ (by omega)
  have ow : ownersOf (byteOf (o.owners.getD []).length) (ownerField (o.owners.getD [])) = some (o.owners.getD []) := ownersOf_ownerField _ h1
  have num (x : Option Nat) : amendField x.isSome (fieldOf 4 (x.getD 0)) (some (x.getD 0)) = some x := by
    cases x <;> simp [amendField, fieldOf]
  have sg : amendField o.segment.isSome [(o.segment.map fun n => byteOf n.val).getD 0] (segmentOf ((o.segment.map fun n => byteOf n.val).getD 0)) = some o.segment := by
    cases o.segment with
    | none => rfl
    | some n => have : segmentOf (byteOf n.val) = some n := segmentOf_ofNat _
                simp [amendField, this]
  have wp : amendField o.writePolicy.isSome [(o.writePolicy.map writePolicyByte).getD 0] (WritePolicy.ofCode ((o.writePolicy.map writePolicyByte).getD 0)) = some o.writePolicy := by
    rcases o.writePolicy with - | (_ | _) <;> rfl
  have ap : amendField o.absentPolicy.isSome [(o.absentPolicy.map absentPolicyByte).getD 0] (AbsentPolicy.ofCode ((o.absentPolicy.map absentPolicyByte).getD 0)) = some o.absentPolicy := by
    rcases o.absentPolicy with - | (_ | _) <;> rfl
  have os : amendField o.owners.isSome (byteOf (o.owners.getD []).length :: ownerField (o.owners.getD [])) (some (o.owners.getD [])) = some o.owners := by
    cases o.owners with
    | none => rfl
    | some l => simp [amendField]
  simp only [parseAmend, hw, amendBlock_length, e1, q0, q1, q2, q3, q4, q5, q6, q7, e2, e3, e4, e5, g2, g3, g4, g5, g6, g10, g14, g18, f10, f14, f18, ow, and_self, if_true]
  simp only [num, sg, wp, ap, os]

theorem amendField_some {α : Type} (pr : Bool) (bytes : List Byte) (v : Option α) (x : Option α) (h : amendField pr bytes v = some x) :
   pr = x.isSome ∧ (x = none → ∀ b ∈ bytes, b = 0) ∧ ∀ y, x = some y → v = some y := by
  unfold amendField at h
  cases pr with
  | true =>
    simp at h; obtain ⟨a, h1, rfl⟩ := h
    exact ⟨rfl, by simp, fun y hy => by cases hy; exact h1⟩
  | false =>
    simp only [Bool.false_eq_true, if_false] at h
    split at h
    · rename_i hb; cases h; simp at hb; exact ⟨rfl, fun _ => hb, by simp⟩
    · cases h

theorem presence_byte : ∀ (p : Byte), p.getLsbD 7 = false → p = byteOf (presenceBit 0 (p.getLsbD 0) + presenceBit 1 (p.getLsbD 1) + presenceBit 2 (p.getLsbD 2) + presenceBit 3 (p.getLsbD 3) + presenceBit 4 (p.getLsbD 4) + presenceBit 5 (p.getLsbD 5) + presenceBit 6 (p.getLsbD 6)) := by
  decide

/-- A block that AMEND reads is the block of the operands it reads. -/
theorem parseAmend_ok (b : List Byte) (o) (h : parseAmend b = .ok o) : AmendEncodable o ∧ b = amendBlock o := by
  unfold parseAmend at h
  split at h
  · cases h
  · rename_i w hw
    dsimp only at h
    split at h
    · rename_i hl
      obtain ⟨hl, h7⟩ := hl
      split at h
      · rename_i bs lm sg sb wp ap ow h1 h2 h3 h4 h5 h6 h8
        cases h
        obtain ⟨b0, b, rfl⟩ := List.exists_cons_of_length_eq_add_one (n := 21) hl
        obtain ⟨b1, b, rfl⟩ := List.exists_cons_of_length_eq_add_one (n := 20) (l := b) (by simpa using hl)
        obtain ⟨b2, b, rfl⟩ := List.exists_cons_of_length_eq_add_one (n := 19) (l := b) (by simpa using hl)
        obtain ⟨b3, b, rfl⟩ := List.exists_cons_of_length_eq_add_one (n := 18) (l := b) (by simpa using hl)
        obtain ⟨b4, b, rfl⟩ := List.exists_cons_of_length_eq_add_one (n := 17) (l := b) (by simpa using hl)
        obtain ⟨b5, b, rfl⟩ := List.exists_cons_of_length_eq_add_one (n := 16) (l := b) (by simpa using hl)
        obtain ⟨b6, b, rfl⟩ := List.exists_cons_of_length_eq_add_one (n := 15) (l := b) (by simpa using hl)
        obtain ⟨b7, b, rfl⟩ := List.exists_cons_of_length_eq_add_one (n := 14) (l := b) (by simpa using hl)
        obtain ⟨b8, b, rfl⟩ := List.exists_cons_of_length_eq_add_one (n := 13) (l := b) (by simpa using hl)
        obtain ⟨b9, b, rfl⟩ := List.exists_cons_of_length_eq_add_one (n := 12) (l := b) (by simpa using hl)
        obtain ⟨b10, b, rfl⟩ := List.exists_cons_of_length_eq_add_one (n := 11) (l := b) (by simpa using hl)
        obtain ⟨b11, b, rfl⟩ := List.exists_cons_of_length_eq_add_one (n := 10) (l := b) (by simpa using hl)
        obtain ⟨b12, b, rfl⟩ := List.exists_cons_of_length_eq_add_one (n := 9) (l := b) (by simpa using hl)
        obtain ⟨b13, b, rfl⟩ := List.exists_cons_of_length_eq_add_one (n := 8) (l := b) (by simpa using hl)
        obtain ⟨b14, b, rfl⟩ := List.exists_cons_of_length_eq_add_one (n := 7) (l := b) (by simpa using hl)
        obtain ⟨b15, b, rfl⟩ := List.exists_cons_of_length_eq_add_one (n := 6) (l := b) (by simpa using hl)
        obtain ⟨b16, b, rfl⟩ := List.exists_cons_of_length_eq_add_one (n := 5) (l := b) (by simpa using hl)
        obtain ⟨b17, b, rfl⟩ := List.exists_cons_of_length_eq_add_one (n := 4) (l := b) (by simpa using hl)
        obtain ⟨b18, b, rfl⟩ := List.exists_cons_of_length_eq_add_one (n := 3) (l := b) (by simpa using hl)
        obtain ⟨b19, b, rfl⟩ := List.exists_cons_of_length_eq_add_one (n := 2) (l := b) (by simpa using hl)
        obtain ⟨b20, b, rfl⟩ := List.exists_cons_of_length_eq_add_one (n := 1) (l := b) (by simpa using hl)
        obtain ⟨b21, b, rfl⟩ := List.exists_cons_of_length_eq_add_one (n := 0) (l := b) (by simpa using hl)
        have hb : b = [] := by simpa using hl
        subst hb
        obtain ⟨p1, z1, v1⟩ := amendField_some (b1.getLsbD 0) [b10, b11, b12, b13] (some (numberOf [b10, b11, b12, b13])) bs h1
        obtain ⟨p2, z2, v2⟩ := amendField_some (b1.getLsbD 1) [b14, b15, b16, b17] (some (numberOf [b14, b15, b16, b17])) lm h2
        obtain ⟨p3, z3, v3⟩ := amendField_some (b1.getLsbD 2) [b2] (segmentOf b2) sg h3
        obtain ⟨p4, z4, v4⟩ := amendField_some (b1.getLsbD 3) [b18, b19, b20, b21] (some (numberOf [b18, b19, b20, b21])) sb h4
        obtain ⟨p5, z5, v5⟩ := amendField_some (b1.getLsbD 4) [b3] (WritePolicy.ofCode b3) wp h5
        obtain ⟨p6, z6, v6⟩ := amendField_some (b1.getLsbD 5) [b4] (AbsentPolicy.ofCode b4) ap h6
        obtain ⟨p7, z7, v7⟩ := amendField_some (b1.getLsbD 6) [b5, b6, b7, b8, b9] (ownersOf b5 [b6, b7, b8, b9]) ow h8
        have num : ∀ (x : Option Nat) (a b c d : Byte), (x = none → ∀ e ∈ [a, b, c, d], e = 0) → (∀ y, x = some y → some (numberOf [a, b, c, d]) = some y) → [a, b, c, d] = fieldOf 4 (x.getD 0) ∧ x.getD 0 ≤ 0xFFFFFFFF := by
          intro x a b c d hz hv
          cases x with
          | none => have := hz rfl; simp at this; obtain ⟨rfl, rfl, rfl, rfl⟩ := this; exact ⟨rfl, by decide⟩
          | some y => have := hv y rfl; cases this; exact ⟨(fieldOf_four _ _ _ _).symm, numberOf_four_le _ _ _ _⟩
        have n1 := num bs _ _ _ _ z1 v1
        have n2 := num lm _ _ _ _ z2 v2
        have n4 := num sb _ _ _ _ z4 v4
        have n3 : b2 = (sg.map fun n => byteOf n.val).getD 0 := by
          cases sg with
          | none => simpa using z3 rfl
          | some y => exact byteOf_of_segmentOf _ _ (v3 y rfl)
        have n5 : b3 = (wp.map writePolicyByte).getD 0 := by
          cases wp with
          | none => simpa using z5 rfl
          | some y => exact writePolicy_of_ofCode _ _ (v5 y rfl)
        have n6 : b4 = (ap.map absentPolicyByte).getD 0 := by
          cases ap with
          | none => simpa using z6 rfl
          | some y => exact absentPolicy_of_ofCode _ _ (v6 y rfl)
        have n7 : (ow.getD []).length ≤ 4 ∧ b5 = byteOf (ow.getD []).length ∧ [b6, b7, b8, b9] = ownerField (ow.getD []) := by
          cases ow with
          | none => have := z7 rfl; simp at this; obtain ⟨rfl, rfl, rfl, rfl, rfl⟩ := this; exact ⟨by decide, rfl, rfl⟩
          | some y => exact ownersOf_some _ _ _ _ _ _ (v7 y rfl)
        refine ⟨⟨n7.1, n1.2, n2.2, n4.2⟩, ?_⟩
        have q1 := presence_byte b1 h7
        rw [p1, p2, p3, p4, p5, p6, p7] at q1
        have q0 : b0 = byteOf w.val := by
          simp only [windowOperand] at hw
          split at hw
          · rename_i w' hh; cases hw; exact byteOf_of_windowOf _ _ hh
          · cases hw
        unfold amendBlock
        dsimp only
        rw [← n1.1, ← n2.1, ← n4.1, ← n3, ← n5, ← n6, ← n7.2.1, ← n7.2.2, ← q0, ← q1]
        rfl
      · cases h
    · cases h

/-! ### Validation -/

theorem mappingOk_iff (w : Window) : w.mappingOk = true ↔ WindowValid w := by
  unfold Window.mappingOk WindowValid MappingValid
  simp only [Bool.and_eq_true, decide_eq_true_eq]
  cases w.space <;> simp [Space.granule, Space.segmentMaximum, addressMaximum, and_assoc]
  tauto

theorem blocked_iff (s : State) (n : WindowNumber) (w : Window) : s.blocked n w = true ↔ Overlaps s n w.space w.base w.limit := by
  simp [-Fin.getElem_fin, State.blocked, allWindows, Window.visible, Window.overlaps, and_assoc]

theorem chooseRecord_of_chosen (s : State) (win) (w) (h : Chosen s win w) : s.chooseRecord win = .ok w := by
  obtain ⟨hf, h | ⟨h, hv⟩⟩ := h
  · subst h; simp [-Fin.getElem_fin, State.chooseRecord, Window.visible, hf]
  · subst h
    have : (allWindows.find? fun w => !s.windows[w].visible) = some w := by
      rw [List.find?_eq_some_iff_getElem]
      refine ⟨by simp [-Fin.getElem_fin, Window.visible, hf], w.val, by simp [allWindows], by simp [allWindows], ?_⟩
      intro j hj
      simp only [allWindows, List.getElem_finRange]
      have := hv ⟨j, by omega⟩ hj
      simpa [-Fin.getElem_fin, Window.visible] using this
    simp [-Fin.getElem_fin, State.chooseRecord, this]

/-! ### Settings -/

theorem ofCode_settingCode (n : SettingName) : SettingName.ofCode (settingCode n).1 (settingCode n).2 = some n := by
  have h : ∀ k : SegmentNumber, segmentOf (byteOf k.val) = some k := segmentOf_ofNat
  cases n <;> simp [settingCode, SettingName.ofCode, onceSetting, h]

theorem onceSetting_some (seg : Byte) (n m) (h : onceSetting seg n = some m) : n = m ∧ seg = 0 := by
  unfold onceSetting at h; split at h
  · rename_i hs; cases h; exact ⟨rfl, hs⟩
  · cases h

theorem segmentOf_map_some (seg : Byte) (f : SegmentNumber → SettingName) (m) (h : (segmentOf seg).map f = some m) : ∃ k : SegmentNumber, seg = byteOf k.val ∧ f k = m := by
  cases hs : segmentOf seg with
  | none => rw [hs] at h; cases h
  | some k =>
    rw [hs] at h; cases h
    refine ⟨k, ?_, rfl⟩
    unfold segmentOf at hs
    split at hs
    · cases hs; apply BitVec.eq_of_toNat_eq; simp [byteOf]
    · cases hs

theorem settingCode_ofCode (c s : Byte) (n) (h : SettingName.ofCode c s = some n) : settingCode n = (c, s) := by
  by_cases h01 : c = 0x01
  · subst h01; obtain ⟨rfl, rfl⟩ := onceSetting_some _ _ _ (h : onceSetting s _ = some n); rfl
  by_cases h02 : c = 0x02
  · subst h02; obtain ⟨rfl, rfl⟩ := onceSetting_some _ _ _ (h : onceSetting s _ = some n); rfl
  by_cases h03 : c = 0x03
  · subst h03; obtain ⟨rfl, rfl⟩ := onceSetting_some _ _ _ (h : onceSetting s _ = some n); rfl
  by_cases h04 : c = 0x04
  · subst h04; obtain ⟨rfl, rfl⟩ := onceSetting_some _ _ _ (h : onceSetting s _ = some n); rfl
  by_cases h05 : c = 0x05
  · subst h05; obtain ⟨rfl, rfl⟩ := onceSetting_some _ _ _ (h : onceSetting s _ = some n); rfl
  by_cases h06 : c = 0x06
  · subst h06; obtain ⟨rfl, rfl⟩ := onceSetting_some _ _ _ (h : onceSetting s _ = some n); rfl
  by_cases h07 : c = 0x07
  · subst h07; obtain ⟨rfl, rfl⟩ := onceSetting_some _ _ _ (h : onceSetting s _ = some n); rfl
  by_cases h08 : c = 0x08
  · subst h08; obtain ⟨rfl, rfl⟩ := onceSetting_some _ _ _ (h : onceSetting s _ = some n); rfl
  by_cases h10 : c = 0x10
  · subst h10; obtain ⟨k, rfl, rfl⟩ := segmentOf_map_some _ _ _ (h : (segmentOf s).map SettingName.width = some n); rfl
  by_cases h11 : c = 0x11
  · subst h11; obtain ⟨k, rfl, rfl⟩ := segmentOf_map_some _ _ _ (h : (segmentOf s).map SettingName.cycleTimeout = some n); rfl
  by_cases h12 : c = 0x12
  · subst h12; obtain ⟨k, rfl, rfl⟩ := segmentOf_map_some _ _ _ (h : (segmentOf s).map SettingName.noResponseLimit = some n); rfl
  by_cases h13 : c = 0x13
  · subst h13; obtain ⟨k, rfl, rfl⟩ := segmentOf_map_some _ _ _ (h : (segmentOf s).map SettingName.haltOnError = some n); rfl
  by_cases h14 : c = 0x14
  · subst h14; obtain ⟨k, rfl, rfl⟩ := segmentOf_map_some _ _ _ (h : (segmentOf s).map SettingName.resetPulse = some n); rfl
  simp only [BitVec.ofNat_eq_ofNat] at h01 h02 h03 h04 h05 h06 h07 h08 h10 h11 h12 h13 h14
  simp [SettingName.ofCode, *] at h

theorem ofCode_none_iff (c s : Byte) : (∀ n, settingCode n ≠ (c, s)) ↔ SettingName.ofCode c s = none := by
  constructor
  · intro h
    cases hn : SettingName.ofCode c s with
    | none => rfl
    | some n => exact absurd (settingCode_ofCode c s n hn) (h n)
  · intro h n hn
    have := ofCode_settingCode n
    rw [hn, h] at this; cases this

theorem inRange_some (a b v : Nat) (h : a ≤ v ∧ v ≤ b) : inRange a b v = some v := by simp [inRange, h]

theorem inRange_none (a b v : Nat) (h : ¬ (a ≤ v ∧ v ≤ b)) : inRange a b v = none := by simp only [inRange, if_neg h]

theorem ofOptionValue_admitted (n v : Nat) (hn : n ≤ 32) (h : v ≤ n - 1 ∨ v = 0xFFFFFFFF) (hn' : 1 ≤ n) : ∃ k, ofOptionValue n v = some k ∧ optionValue k = v := by
  unfold ofOptionValue
  rcases h with h | h
  · have : v ≠ noneValue := by simp [noneValue]; omega
    rw [if_neg this, dif_pos (by omega)]; exact ⟨_, rfl, rfl⟩
  · subst h; exact ⟨none, rfl, rfl⟩

theorem ofOptionValue_refused (n v : Nat) (h : ¬ (v ≤ n - 1 ∨ v = 0xFFFFFFFF)) : ofOptionValue n v = none := by
  unfold ofOptionValue
  rw [if_neg (fun hh : v = noneValue => h (.inr hh)), dif_neg (by omega)]

theorem optionValue_requester (v : Option Requester) : optionValue v = (v.map Fin.val).getD 0xFFFFFFFF := by
  cases v <;> rfl

theorem ofOptionValue_requester (v : Option Requester) : ofOptionValue 32 ((v.map Fin.val).getD 0xFFFFFFFF) = some v := by
  cases v with
  | none => rfl
  | some k => 
    have := k.isLt
    have h : k.val ≠ noneValue := by simp [noneValue]; omega
    simp [ofOptionValue, h]

theorem optionValue_fits (v : Option Requester) : (v.map Fin.val).getD 0xFFFFFFFF < 256 ^ 4 := by
  cases v with
  | none => decide
  | some k => have := k.isLt; simp; omega

theorem segments_after_setSegment (v : Settings) (n m : SegmentNumber) (x : SegmentSettings) : (v.setSegment n x).segments[m] = if m = n then x else v.segments[m] := by
  simp only [Settings.setSegment, Fin.getElem_fin, Vector.getElem_set]
  by_cases h : m = n
  · subst h; simp
  · have h1 : ¬ n.val = m.val := fun hh => h (Fin.ext hh.symm)
    rw [if_neg h1, if_neg h]

/-- A value outside the encoding is refused. -/
theorem write_refused (v : Settings) (n : SettingName) (x : Nat) (h : ¬ admits n x) : v.write n x = none := by
  cases n <;> simp only [admits, ne_eq] at h
  case managementSet => simp [Settings.write, not_not.1 h]
  case pendingQuota => simp only [Settings.write, inRange_none _ _ _ h]; rfl
  case discardInterval => simp only [Settings.write, inRange_none _ _ _ h]; rfl
  case defaultRouteMemory => simp only [Settings.write, ofOptionValue_refused 4 _ h]; rfl
  case defaultRouteIo => simp only [Settings.write, ofOptionValue_refused 4 _ h]; rfl
  case defaultAbsentPolicy => simp only [Settings.write]; rw [if_neg (by omega), if_neg (by omega)]
  case noticeTarget => simp only [Settings.write, ofOptionValue_refused 32 _ h]; rfl
  case noticeAckTimeout => simp only [Settings.write, inRange_none _ _ _ h]; rfl
  case width => simp only [Settings.write]; rw [if_neg (by omega), if_neg (by omega)]
  case cycleTimeout => simp only [Settings.write, inRange_none _ _ _ h]; rfl
  case noResponseLimit => simp only [Settings.write, inRange_none _ _ _ h]; rfl
  case haltOnError => simp only [Settings.write]; rw [if_neg (by omega), if_neg (by omega)]
  case resetPulse => simp only [Settings.write, inRange_none _ _ _ h]; rfl

theorem value_after_setSegment (v : Settings) (n : SegmentNumber) (x : SegmentSettings) (o : SettingName)
   (h1 : o = .width n → x.width = v.segments[n].width) (h2 : o = .cycleTimeout n → x.cycleTimeout = v.segments[n].cycleTimeout)
   (h3 : o = .noResponseLimit n → x.noResponseLimit = v.segments[n].noResponseLimit) (h4 : o = .haltOnError n → x.haltOnError = v.segments[n].haltOnError)
   (h5 : o = .resetPulse n → x.resetPulse = v.segments[n].resetPulse) : (v.setSegment n x).value o = v.value o := by
  cases o <;> try rfl
  all_goals rename_i m; simp only [Settings.value]; rw [segments_after_setSegment]; by_cases h : m = n
  all_goals first | (subst h; simp_all [-Fin.getElem_fin]) | simp [-Fin.getElem_fin, h]

/-- An admitted value is written, and no other setting changes. -/
theorem write_admitted (v : Settings) (n : SettingName) (x : Nat) (hx : x ≤ 0xFFFFFFFF) (h : admits n x) : ∃ u, v.write n x = some u ∧ u.value n = x ∧ ∀ o, o ≠ n → u.value o = v.value o := by
  cases n <;> simp only [admits, ne_eq] at h
  case managementSet =>
    refine ⟨{ v with managementSet := BitVec.ofNat 32 x }, by simp [Settings.write, h], by simp [Settings.value]; omega, fun o ho => ?_⟩
    cases o <;> first | rfl | exact absurd rfl ho
  case pendingQuota =>
    refine ⟨_, by simp only [Settings.write, inRange_some _ _ _ h]; rfl, rfl, fun o ho => ?_⟩
    cases o <;> first | rfl | exact absurd rfl ho
  case discardInterval =>
    refine ⟨_, by simp only [Settings.write, inRange_some _ _ _ h]; rfl, rfl, fun o ho => ?_⟩
    cases o <;> first | rfl | exact absurd rfl ho
  case defaultRouteMemory =>
    obtain ⟨k, h1, h2⟩ := ofOptionValue_admitted 4 x (by omega) h (by omega)
    refine ⟨_, by simp only [Settings.write, h1]; rfl, by simp only [Settings.value, h2], fun o ho => ?_⟩
    cases o <;> first | rfl | exact absurd rfl ho
  case defaultRouteIo =>
    obtain ⟨k, h1, h2⟩ := ofOptionValue_admitted 4 x (by omega) h (by omega)
    refine ⟨_, by simp only [Settings.write, h1]; rfl, by simp only [Settings.value, h2], fun o ho => ?_⟩
    cases o <;> first | rfl | exact absurd rfl ho
  case defaultAbsentPolicy =>
    have : x = 0 ∨ x = 1 := by omega
    rcases this with rfl | rfl
    · refine ⟨_, rfl, rfl, fun o ho => ?_⟩
      cases o <;> first | rfl | exact absurd rfl ho
    · refine ⟨_, rfl, rfl, fun o ho => ?_⟩
      cases o <;> first | rfl | exact absurd rfl ho
  case noticeTarget =>
    obtain ⟨k, h1, h2⟩ := ofOptionValue_admitted 32 x (by omega) h (by omega)
    refine ⟨_, by simp only [Settings.write, h1]; rfl, by simp only [Settings.value, h2], fun o ho => ?_⟩
    cases o <;> first | rfl | exact absurd rfl ho
  case noticeAckTimeout =>
    refine ⟨_, by simp only [Settings.write, inRange_some _ _ _ h]; rfl, rfl, fun o ho => ?_⟩
    cases o <;> first | rfl | exact absurd rfl ho
  case width n =>
    rcases h with rfl | rfl
    · refine ⟨_, rfl, by simp only [Settings.value]; rw [segments_after_setSegment, if_pos rfl], fun o ho => value_after_setSegment _ _ _ _ ?_ ?_ ?_ ?_ ?_⟩ <;> intro h <;> first | rfl | exact absurd h ho
    · refine ⟨_, rfl, by simp only [Settings.value]; rw [segments_after_setSegment, if_pos rfl], fun o ho => value_after_setSegment _ _ _ _ ?_ ?_ ?_ ?_ ?_⟩ <;> intro h <;> first | rfl | exact absurd h ho
  case cycleTimeout n =>
    refine ⟨_, by simp only [Settings.write, inRange_some _ _ _ h]; rfl, by simp only [Settings.value]; rw [segments_after_setSegment, if_pos rfl], fun o ho => value_after_setSegment _ _ _ _ ?_ ?_ ?_ ?_ ?_⟩ <;> intro h <;> first | rfl | exact absurd h ho
  case noResponseLimit n =>
    refine ⟨_, by simp only [Settings.write, inRange_some _ _ _ h]; rfl, by simp only [Settings.value]; rw [segments_after_setSegment, if_pos rfl], fun o ho => value_after_setSegment _ _ _ _ ?_ ?_ ?_ ?_ ?_⟩ <;> intro h <;> first | rfl | exact absurd h ho
  case haltOnError n =>
    have : x = 0 ∨ x = 1 := by omega
    rcases this with rfl | rfl
    · refine ⟨_, rfl, by simp only [Settings.value]; rw [segments_after_setSegment, if_pos rfl]; rfl, fun o ho => value_after_setSegment _ _ _ _ ?_ ?_ ?_ ?_ ?_⟩ <;> intro h <;> first | rfl | exact absurd h ho
    · refine ⟨_, rfl, by simp only [Settings.value]; rw [segments_after_setSegment, if_pos rfl]; rfl, fun o ho => value_after_setSegment _ _ _ _ ?_ ?_ ?_ ?_ ?_⟩ <;> intro h <;> first | rfl | exact absurd h ho
  case resetPulse n =>
    refine ⟨_, by simp only [Settings.write, inRange_some _ _ _ h]; rfl, by simp only [Settings.value]; rw [segments_after_setSegment, if_pos rfl], fun o ho => value_after_setSegment _ _ _ _ ?_ ?_ ?_ ?_ ?_⟩ <;> intro h <;> first | rfl | exact absurd h ho

theorem widthHeld_iff (s : State) (n : SettingName) : s.widthHeld n = true ↔ WidthBusy s n := by
  cases n <;> simp [-Fin.getElem_fin, State.widthHeld, WidthBusy]

end Sys2Proof.Safety
end

