-- ==== Sys2Proof/Laws/PerInstr.lean ====
section
/-! SUPPORT. Statements made once for each command: the message kind that a command's message begins with (R171). -/

namespace Sys2Proof.Laws.AskKindByte

/-- The message kind of a row, where the row names one (R171). -/
def kindOf : Instr → Option Byte
  | .read _ _ => some 0x01
  | .write _ _ => some 0x02
  | .noticeAck _ _ => some 0x04
  | .openWindow _ _ => some 0x03
  | .amend _ _ => some 0x03
  | .renew _ _ => some 0x03
  | .freeze _ _ => some 0x03
  | .close _ _ => some 0x03
  | .closeWithAbandon _ _ => some 0x03
  | .query _ _ => some 0x03
  | .lookup _ _ => some 0x03
  | .bringOnline _ _ => some 0x03
  | .takeOffline _ _ => some 0x03
  | .resume _ _ => some 0x03
  | .resetSegment _ _ => some 0x03
  | .segmentStatus _ _ => some 0x03
  | .pendingStatus _ _ => some 0x03
  | .cancelRequester _ _ => some 0x03
  | .resumeNotices _ _ => some 0x03
  | .noticeStatus _ _ => some 0x03
  | .readSetting _ _ => some 0x03
  | .writeSetting _ _ => some 0x03
  | .noticeTarget _ _ => some 0x03
  | .segnWidth _ _ => some 0x03
  | .managementSet _ _ => some 0x03
  | .identify _ _ => some 0x03
  | .warmReset _ _ => some 0x03
  | .unknownCommand _ _ => some 0x03
  | .warmNAssert => none
  | .warmNRelease => none
  | .pwrgoodFall => none
  | .coldResetEnd => none
  | .leaseExpiry _ => none
  | .discardExpiry _ => none
  | .cycleTimeout _ => none
  | .cycleAcknowledged _ _ => none
  | .targetError _ => none
  | .resetPulseExpiry _ => none
  | .ackTimerExpiry => none
  | .takeHead _ => none
  | .noticeSend => none
  | .pwrgoodRise => none
  | .askOfUnknownKind _ => none
  | .messageLeavesPort _ => none

/-- A well-formed command's message, if it has one, begins with the kind its row names, or with none of the four kinds. -/
def Statement (i : Instr) : Prop :=
  i.wellFormed = true → ∀ m, i.message = some m →
    match kindOf i with
    | some kind => m.head? = some kind
    | none => ∀ b ∈ m.head?, b ∉ askKinds

theorem read (header : Header) (body : List Byte) : Statement (.read header body) := by
  rintro - m ⟨⟩; rfl

theorem write (header : Header) (body : List Byte) : Statement (.write header body) := by
  rintro - m ⟨⟩; rfl

theorem noticeAck (header : Header) (body : List Byte) : Statement (.noticeAck header body) := by
  rintro - m ⟨⟩; rfl

theorem openWindow (header : Header) (operands : List Byte) : Statement (.openWindow header operands) := by
  rintro - m ⟨⟩; rfl

theorem amend (header : Header) (operands : List Byte) : Statement (.amend header operands) := by
  rintro - m ⟨⟩; rfl

theorem renew (header : Header) (operands : List Byte) : Statement (.renew header operands) := by
  rintro - m ⟨⟩; rfl

theorem freeze (header : Header) (operands : List Byte) : Statement (.freeze header operands) := by
  rintro - m ⟨⟩; rfl

theorem close (header : Header) (operands : List Byte) : Statement (.close header operands) := by
  rintro - m ⟨⟩; rfl

theorem closeWithAbandon (header : Header) (operands : List Byte) : Statement (.closeWithAbandon header operands) := by
  rintro - m ⟨⟩; rfl

theorem query (header : Header) (operands : List Byte) : Statement (.query header operands) := by
  rintro - m ⟨⟩; rfl

theorem lookup (header : Header) (operands : List Byte) : Statement (.lookup header operands) := by
  rintro - m ⟨⟩; rfl

theorem bringOnline (header : Header) (operands : List Byte) : Statement (.bringOnline header operands) := by
  rintro - m ⟨⟩; rfl

theorem takeOffline (header : Header) (operands : List Byte) : Statement (.takeOffline header operands) := by
  rintro - m ⟨⟩; rfl

theorem resume (header : Header) (operands : List Byte) : Statement (.resume header operands) := by
  rintro - m ⟨⟩; rfl

theorem resetSegment (header : Header) (operands : List Byte) : Statement (.resetSegment header operands) := by
  rintro - m ⟨⟩; rfl

theorem segmentStatus (header : Header) (operands : List Byte) : Statement (.segmentStatus header operands) := by
  rintro - m ⟨⟩; rfl

theorem pendingStatus (header : Header) (operands : List Byte) : Statement (.pendingStatus header operands) := by
  rintro - m ⟨⟩; rfl

theorem cancelRequester (header : Header) (operands : List Byte) : Statement (.cancelRequester header operands) := by
  rintro - m ⟨⟩; rfl

theorem resumeNotices (header : Header) (operands : List Byte) : Statement (.resumeNotices header operands) := by
  rintro - m ⟨⟩; rfl

theorem noticeStatus (header : Header) (operands : List Byte) : Statement (.noticeStatus header operands) := by
  rintro - m ⟨⟩; rfl

theorem readSetting (header : Header) (operands : List Byte) : Statement (.readSetting header operands) := by
  rintro - m ⟨⟩; rfl

theorem writeSetting (header : Header) (operands : List Byte) : Statement (.writeSetting header operands) := by
  rintro - m ⟨⟩; rfl

theorem noticeTarget (header : Header) (rest : List Byte) : Statement (.noticeTarget header rest) := by
  rintro - m ⟨⟩; rfl

theorem segnWidth (header : Header) (rest : List Byte) : Statement (.segnWidth header rest) := by
  rintro - m ⟨⟩; rfl

theorem managementSet (header : Header) (rest : List Byte) : Statement (.managementSet header rest) := by
  rintro - m ⟨⟩; rfl

theorem identify (header : Header) (operands : List Byte) : Statement (.identify header operands) := by
  rintro - m ⟨⟩; rfl

theorem warmReset (header : Header) (operands : List Byte) : Statement (.warmReset header operands) := by
  rintro - m ⟨⟩; rfl

theorem unknownCommand (header : Header) (body : List Byte) : Statement (.unknownCommand header body) := by
  rintro - m ⟨⟩; rfl

theorem warmNAssert : Statement .warmNAssert := fun _ _ h => nomatch h

theorem warmNRelease : Statement .warmNRelease := fun _ _ h => nomatch h

theorem pwrgoodFall : Statement .pwrgoodFall := fun _ _ h => nomatch h

theorem coldResetEnd : Statement .coldResetEnd := fun _ _ h => nomatch h

theorem leaseExpiry (window : WindowNumber) : Statement (.leaseExpiry window) := fun _ _ h => nomatch h

theorem discardExpiry (slot : Slot) : Statement (.discardExpiry slot) := fun _ _ h => nomatch h

theorem cycleTimeout (segment : SegmentNumber) : Statement (.cycleTimeout segment) := fun _ _ h => nomatch h

theorem cycleAcknowledged (cycle : CycleName) (data : BitVec 16) : Statement (.cycleAcknowledged cycle data) := fun _ _ h => nomatch h

theorem targetError (cycle : CycleName) : Statement (.targetError cycle) := fun _ _ h => nomatch h

theorem resetPulseExpiry (segment : SegmentNumber) : Statement (.resetPulseExpiry segment) := fun _ _ h => nomatch h

theorem ackTimerExpiry : Statement .ackTimerExpiry := fun _ _ h => nomatch h

theorem takeHead (segment : SegmentNumber) : Statement (.takeHead segment) := fun _ _ h => nomatch h

theorem noticeSend : Statement .noticeSend := fun _ _ h => nomatch h

theorem pwrgoodRise : Statement .pwrgoodRise := fun _ _ h => nomatch h

theorem askOfUnknownKind (message : List Byte) : Statement (.askOfUnknownKind message) := by
  intro hw m hm
  simp only [Instr.message, Option.some.injEq] at hm
  subst hm
  intro b hb
  cases message with
  | nil => simp at hb
  | cons x xs =>
    simp only [List.head?_cons, Option.mem_some_iff] at hb
    subst hb
    simpa [Instr.wellFormed] using hw

theorem messageLeavesPort (which : Outgoing) : Statement (.messageLeavesPort which) := fun _ _ h => nomatch h

end Sys2Proof.Laws.AskKindByte
end

