-- ==== Sys2Proof/Laws/Pins.lean ====
section
/-! SUPPORT. The pins of a segment, case by case: power off, no cycle, and the two phases of a cycle (R112, R179). -/

namespace Sys2Proof.Machine

theorem segmentPins_off (s : State) (n : SegmentNumber) (phase : CyclePhase) (h : s.power = .off) :
    s.segmentPins n phase = .unpowered := by
  simp [State.segmentPins, h]

theorem segmentPins_powered (s : State) (n : SegmentNumber) (phase : CyclePhase) (h : s.power ≠ .off) :
    s.segmentPins n phase = s.poweredPins n phase := by
  unfold State.segmentPins
  cases hp : s.power <;> simp_all

theorem poweredPins_idle (s : State) (n : SegmentNumber) (phase : CyclePhase) (h : s.engines[n].current = none) :
    s.poweredPins n phase = .idle (activeLow (s.resetLine n)) := by
  simp only [State.poweredPins, h]

theorem poweredPins_address (s : State) (n : SegmentNumber) (x : RunningCycle) (h : s.engines[n].current = some x) :
    s.poweredPins n .address = x.cycle.addressPins (activeLow (s.resetLine n)) := by
  simp only [State.poweredPins, h]

theorem poweredPins_data (s : State) (n : SegmentNumber) (x : RunningCycle) (h : s.engines[n].current = some x) :
    s.poweredPins n .data = x.cycle.dataPins (activeLow (s.resetLine n)) := by
  simp only [State.poweredPins, h]

/-- The reset line is low exactly where R112 and R179 have it asserted. -/
theorem resetLine_low (s : State) (n : SegmentNumber) : activeLow (s.resetLine n) = .low ↔
    s.power = .off ∨ s.engines[n].state = .offline ∨ s.engines[n].state = .resetting := by
  unfold activeLow State.resetLine
  split <;> simp_all

end Sys2Proof.Machine
end

