-- ==== Sys2Proof/Laws/Tables.lean ====
section
/-! SUPPORT. The tables and queues as whole: what a fall of the counts, a run of completions and a run of losses leave, record by record. -/

namespace Sys2Proof.Safety

open Sys2Proof.Machine

/-! ### Equal tables -/

theorem windows_ext (a b : Vector Window 48) (h : ∀ x : WindowNumber, a[x] = b[x]) : a = b :=
  Vector.ext fun i hi => h ⟨i, hi⟩

theorem entries_ext (a b : Vector Entry 16) (h : ∀ x : Slot, a[x] = b[x]) : a = b :=
  Vector.ext fun i hi => h ⟨i, hi⟩

theorem engines_ext (a b : Vector Engine 4) (h : ∀ x : SegmentNumber, a[x] = b[x]) : a = b :=
  Vector.ext fun i hi => h ⟨i, hi⟩

theorem filter_length_eq_card (p : Slot → Bool) (q : Slot → Prop) [DecidablePred q] (h : ∀ x, p x = true ↔ q x) :
    (allSlots.filter p).length = (Finset.univ.filter q).card := by
  unfold allSlots
  rw [← List.toFinset_card_of_nodup ((List.nodup_finRange 16).filter _)]
  congr 1
  ext x
  simp [h]

/-! ### Counts -/

/-- The fall of one window's count, whole. -/
theorem lower_eq (s : State) (w : WindowNumber) (n : Nat) :
    s.lower w n = (s.setWindow w (lowered s.windows[w] n)).setNotices (retiredNotice w s.windows[w] n s.notices) := by
  have hf := lower_frame s w n
  have h1 : (s.lower w n).windows = (s.setWindow w (lowered s.windows[w] n)).windows := by
    apply windows_ext
    intro x
    rw [window_after_set]
    by_cases hx : x = w
    · subst hx; rw [if_pos rfl, lower_self]; rfl
    · rw [if_neg hx, lower_other _ _ _ _ hx]
  have h2 := lower_notices s w n
  obtain ⟨a1, a2, a3, a4, a5, a6, a7, a8, a9, a10⟩ := hf
  generalize s.lower w n = t at *
  cases t
  simp_all [State.setWindow, State.setNotices, retiredNotice]

/-- Lowering the counts of a list of windows, window by window. -/
theorem lowerRoutes_fold (s : State) (routes : List Route) (l : List WindowNumber) (hl : l.Nodup) (t : State)
    (ht : ∀ w ∈ l, t.windows[w] = s.windows[w]) :
    let k := fun w : WindowNumber => routes.count (.window w s.windows[w].generation)
    let u := l.foldl (fun t w => if routes.any (·.names s w) then t.lower w (routes.countP (·.names s w)) else t) t
    (∀ w : WindowNumber, u.windows[w] = if w ∈ l then (if k w = 0 then s.windows[w] else lowered s.windows[w] (k w)) else t.windows[w])
    ∧ u.notices = l.foldl (fun u w => if k w = 0 then u else retiredNotice w s.windows[w] (k w) u) t.notices := by
  induction l generalizing t with
  | nil => simp
  | cons v vs ih =>
    intro k u
    have hv : t.windows[v] = s.windows[v] := ht v (by simp)
    have hc : routes.countP (·.names s v) = k v := by
      simp only [k, List.count]
      congr 1
    have hany : routes.any (·.names s v) = true ↔ k v ≠ 0 := by
      rw [← hc, List.any_eq_true, Nat.ne_zero_iff_zero_lt, List.countP_pos_iff]
    obtain ⟨nd1, nd2⟩ := List.nodup_cons.1 hl
    have step : ∃ t', (if routes.any (·.names s v) then t.lower v (routes.countP (·.names s v)) else t) = t'
        ∧ t'.windows[v] = (if k v = 0 then s.windows[v] else lowered s.windows[v] (k v))
        ∧ (∀ w, w ≠ v → t'.windows[w] = t.windows[w])
        ∧ t'.notices = (if k v = 0 then t.notices else retiredNotice v s.windows[v] (k v) t.notices) := by
      refine ⟨_, rfl, ?_⟩
      by_cases hz : k v = 0
      · have : routes.any (·.names s v) = false := by rw [← Bool.not_eq_true, hany]; simp [hz]
        simp [-Fin.getElem_fin, this, hz, hv]
      · rw [if_pos (hany.2 hz), hc, lower_eq, if_neg hz, if_neg hz]
        refine ⟨?_, ?_, ?_⟩
        · simp only [State.setNotices_windows]; rw [window_after_set, if_pos rfl, hv]
        · intro w hw; simp only [State.setNotices_windows]; rw [window_after_set, if_neg hw]
        · simp only [State.setNotices_notices, hv]
    obtain ⟨t', e, p1, p2, p3⟩ := step
    have hu : u = vs.foldl (fun t w => if routes.any (·.names s w) then t.lower w (routes.countP (·.names s w)) else t) t' := by
      rw [← e]; rfl
    obtain ⟨q1, q2⟩ := ih nd2 t' (fun w hw => by rw [p2 w (fun h => nd1 (h ▸ hw)), ht w (by simp [hw])])
    refine ⟨fun w => ?_, ?_⟩
    · rw [hu, q1 w]
      by_cases hw : w = v
      · subst hw; rw [if_neg nd1, p1]; simp
      · simp only [List.mem_cons, hw, false_or]; rw [p2 w hw]
    · rw [hu, q2, p3]; rfl

/-! ### Losses and completions -/

theorem raiseLost_eq (s : State) (n c l) : s.raiseLost n c l = s.setNotices (lostNotice n c l s.notices) := by
  cases l <;> rfl

theorem filter_postedItems (l : List Item) (r : Route) : (postedItems l).filter (fun p => decide (p.route = r)) = l.filterMap fun
    | .posted p => if p.route = r then some p else none
    | .reference _ => none := by
  induction l with
  | nil => rfl
  | cons x xs ih =>
    cases x with
    | posted p => by_cases h : p.route = r <;> simp_all [postedItems]
    | reference k => simp_all [postedItems]

/-- Completing a list of slots, slot by slot. -/
theorem completeEntry_fold (s : State) (l : List Slot) (hl : l.Nodup) (o) (t : State) (ht : ∀ x ∈ l, t.entries[x] = s.entries[x])
   (hset : t.settings = s.settings) :
   let u := l.foldl (fun t slot => t.completeEntry slot o none) t
   (∀ x : Slot, u.entries[x] = if x ∈ l then finished s.entries[x] o none s.settings.discardInterval else t.entries[x])
   ∧ u = { t with entries := u.entries } := by
  induction l generalizing t with
  | nil => simp
  | cons v vs ih =>
    intro u
    obtain ⟨nd1, nd2⟩ := List.nodup_cons.1 hl
    obtain ⟨q1, q2⟩ := ih nd2 (t.completeEntry v o none) (fun x hx => by
      rw [completeEntry_entry, if_neg (fun h : x = v => nd1 (h ▸ hx)), ht x (by simp [hx])]) hset
    refine ⟨fun x => ?_, ?_⟩
    · have := q1 x
      show (vs.foldl _ (t.completeEntry v o none)).entries[x] = _
      rw [this]
      by_cases hx : x = v
      · subst hx; rw [if_neg nd1, completeEntry_entry, if_pos rfl, ht x (by simp), hset]; simp [-Fin.getElem_fin, finished_eq]
      · rw [completeEntry_entry, if_neg hx]; simp [hx]
    · show (vs.foldl _ (t.completeEntry v o none)) = _
      rw [q2]
      rfl

theorem raiseLost_fold (s : State) (f : SegmentNumber → List PostedItem) (c) (l : List SegmentNumber) :
   l.foldl (fun t n => t.raiseLost n c (f n)) s = s.setNotices (l.foldl (fun u n => lostNotice n c (f n) u) s.notices) := by
  induction l generalizing s with
  | nil => rfl
  | cons x xs ih => rw [List.foldl_cons, raiseLost_eq, ih]; rfl

theorem postedItems_length (l : List Item) : (postedItems l).length = l.countP Item.isPosted := by
  induction l with
  | nil => rfl
  | cons x xs ih =>
    cases x with
    | posted p =>
      rw [List.countP_cons_of_pos (by rfl), ← ih]; rfl
    | reference k =>
      rw [List.countP_cons_of_neg (by simp [Item.isPosted]), ← ih]; rfl

/-- Ending a list of slots by a reset, slot by slot. -/
theorem resetEntry_fold (s : State) (l : List Slot) (hl : l.Nodup) (t : State) (ht : ∀ x ∈ l, t.entries[x] = s.entries[x])
   (hset : t.settings = s.settings) :
   let u := l.foldl State.resetEntry t
   (∀ x : Slot, u.entries[x] = if x ∈ l then (if s.entries[x].orphaned = true then emptied s.entries[x] else finished s.entries[x] .segmentReset none s.settings.discardInterval) else t.entries[x])
   ∧ u = { t with entries := u.entries } := by
  induction l generalizing t with
  | nil => simp
  | cons v vs ih =>
    intro u
    obtain ⟨nd1, nd2⟩ := List.nodup_cons.1 hl
    have hv : t.entries[v] = s.entries[v] := ht v (by simp)
    have hR : t.resetEntry v = t.setEntry v (if s.entries[v].orphaned = true then emptied s.entries[v] else finished s.entries[v] .segmentReset none s.settings.discardInterval) := by
      unfold State.resetEntry
      rw [hv]
      split
      · unfold State.freeEntry; rw [hv]; rfl
      · unfold State.completeEntry; rw [hv, hset]; rfl
    obtain ⟨q1, q2⟩ := ih nd2 (t.resetEntry v) (fun x hx => by
      rw [hR, entry_after_set, if_neg (fun h : x = v => nd1 (h ▸ hx)), ht x (by simp [hx])]) (by rw [hR]; exact hset)
    refine ⟨fun x => ?_, ?_⟩
    · have := q1 x
      show (vs.foldl _ (t.resetEntry v)).entries[x] = _
      rw [this]
      by_cases hx : x = v
      · subst hx; rw [if_neg nd1, hR, entry_after_set, if_pos rfl]; simp only [List.mem_cons, true_or, if_true]
      · rw [hR, entry_after_set, if_neg hx]; simp [hx]
    · show (vs.foldl _ (t.resetEntry v)) = { t with entries := (vs.foldl _ (t.resetEntry v)).entries }
      rw [hR] at q2 ⊢
      exact q2

theorem items_refer_once (s : State) (n : SegmentNumber) (h : ReferencesOk s) : (referencedSlots s.engines[n].items).Nodup := by
  unfold Engine.items
  have h1 := h.once n
  cases hf : s.engines[n].inFlight with
  | none => simpa using h1
  | some i =>
    cases i with
    | posted p => simpa [referencedSlots] using h1
    | reference k =>
      have h2 := (h.issued n k hf).1
      have : k ∉ referencedSlots s.engines[n].queue := fun hk => by
        have := (h.queued n k hk).1; rw [h2] at this; cases this
      simp only [Option.toList, List.cons_append, List.nil_append, referencedSlots, List.filterMap_cons]
      exact List.nodup_cons.2 ⟨this, h1⟩

/-! ### Hand-back -/

theorem handBack_engines (s : State) (n i r k) : (s.handBack n i r k).engines = s.engines := by
  unfold State.handBack
  split
  · dsimp only; split
    · unfold State.endEntry; rw [(lowerRoute_frame _ _).engines]; rfl
    · rfl
  · split
    · rw [(lowerRoute_frame _ _).engines]; rfl
    · rw [(lowerRoute_frame _ _).engines]

theorem handBack_settings (s : State) (n i r k) : (s.handBack n i r k).settings = s.settings := by
  unfold State.handBack
  split
  · dsimp only; split
    · unfold State.endEntry; rw [(lowerRoute_frame _ _).settings]; rfl
    · rfl
  · split
    · rw [(lowerRoute_frame _ _).settings]; rfl
    · rw [(lowerRoute_frame _ _).settings]

theorem setEngine_twice (s : State) (n) (e e') : (s.setEngine n e).setEngine n e' = s.setEngine n e' := by
  simp [State.setEngine]

/-! ### Notices and the port -/

theorem mergeHead_of_mergesTo (q q' : List Notice) (h : MergesTo q q') : mergeHead q = q' := by
  rcases h with ⟨rfl, rfl⟩ | ⟨x, rest, rfl, h, rfl⟩ | ⟨x, pre, y, post, rfl, h, hk, rfl⟩
  · rfl
  · simp only [mergeHead, (takeKey_none _ _).2 h]
  · simp only [mergeHead, takeKey_first _ _ _ _ h hk]; rfl

theorem leaveRestarting_eq (s : State) : s.leaveRestarting = if s.port = .restarting ∧ s.warmN = false ∧ ∀ m : SegmentNumber, s.engines[m].state ≠ .resetting then
                  { s with port := .running }
                else s := by
  unfold State.leaveRestarting
  have : allSegments.all (fun n => decide (s.engines[n].state ≠ .resetting)) = true ↔ ∀ m : SegmentNumber, s.engines[m].state ≠ .resetting := by
    simp [-Fin.getElem_fin, allSegments]
  simp only [this]

end Sys2Proof.Safety
end

