-- ==== Sys2Proof/Laws/Time.lean ====
section
/-! SUPPORT. Time: what a timer has left after some ticks, what a tick queues, and that an expiry of a timer that may not expire changes
nothing (R1, log 1, log 2, log 4). -/

namespace Sys2Proof.Machine

/-! ### One timer -/

/-- A timer started at n units, before it has run out: the whole units that have passed are gone, and the present one has run on. -/
theorem tick_iterate (unit n k : Nat) (hu : 1 ≤ unit) (hk : k < n * unit) :
    (Timer.tick unit)^[k] (Timer.start unit n) = ⟨n - k / unit, unit - k % unit⟩ := by
  induction k with
  | zero => simp [Timer.start]
  | succ k ih =>
    rw [Function.iterate_succ_apply', ih (by omega)]
    have hm : k % unit < unit := Nat.mod_lt _ hu
    have hd : k / unit < n := (Nat.div_lt_iff_lt_mul hu).2 (by omega)
    have hd' : (k + 1) / unit < n := (Nat.div_lt_iff_lt_mul hu).2 hk
    unfold Timer.tick
    dsimp only
    by_cases h : (k + 1) % unit = 0
    · have e1 : (k + 1) / unit = k / unit + 1 := Nat.succ_div_of_mod_eq_zero h
      have e2 : k % unit = unit - 1 := by
        have h1 := Nat.div_add_mod (k + 1) unit
        have h2 := Nat.div_add_mod k unit
        rw [h, e1, Nat.mul_add] at h1
        omega
      rw [if_neg (by omega), if_pos (by omega), h, e1]
      congr 1
    · have e1 : (k + 1) / unit = k / unit := Nat.succ_div_of_mod_ne_zero h
      have e2 : (k + 1) % unit = k % unit + 1 := by
        have h1 := Nat.div_add_mod (k + 1) unit
        have h2 := Nat.div_add_mod k unit
        rw [e1] at h1
        omega
      have := Nat.mod_lt (k + 1) hu
      rw [if_pos (by omega), e1, e2]
      congr 1

/-- A timer that has run out stays at the last microsecond of its last unit. -/
theorem tick_iterate_out (unit n k : Nat) (hu : 1 ≤ unit) (hn : 1 ≤ n) (hk : n * unit ≤ k + 1) :
    (Timer.tick unit)^[k] (Timer.start unit n) = ⟨1, 1⟩ := by
  have hp : 1 ≤ n * unit := Nat.mul_pos hn hu
  obtain ⟨j, rfl⟩ : ∃ j, k = n * unit - 1 + j := ⟨k - (n * unit - 1), by omega⟩
  clear hk
  induction j with
  | zero =>
    rw [Nat.add_zero, tick_iterate unit n _ hu (by omega)]
    have e : n * unit - 1 = unit * (n - 1) + (unit - 1) := by
      obtain ⟨m, rfl⟩ : ∃ m, n = m + 1 := ⟨n - 1, by omega⟩
      rw [Nat.add_mul, Nat.mul_comm]; simp; omega
    have e1 : (n * unit - 1) / unit = n - 1 := by
      rw [e, Nat.mul_add_div hu, Nat.div_eq_of_lt (by omega), Nat.add_zero]
    have e2 : (n * unit - 1) % unit = unit - 1 := by
      rw [e, Nat.mul_add_mod, Nat.mod_eq_of_lt (by omega)]
    rw [e1, e2]; congr 1 <;> omega
  | succ j ih => rw [← Nat.add_assoc, Function.iterate_succ_apply', ih]; rfl

/-! ### The expiries of a tick -/

theorem mem_commandIf (b : Bool) (c x : Instr) : x ∈ commandIf b c ↔ x = c ∧ b = true := by
  unfold commandIf; cases b <;> simp

/-- Lists of distinct elements that share none, joined. -/
theorem nodup_flatMap {α β : Type} (l : List α) (f : α → List β) (hl : l.Nodup) (h1 : ∀ x, (f x).Nodup)
    (h2 : ∀ x y, x ≠ y → ∀ c ∈ f x, c ∉ f y) : (l.flatMap f).Nodup := by
  rw [List.nodup_flatMap]
  exact ⟨fun x _ => h1 x, hl.imp fun {a b} hne c hc hd => h2 a b hne c hc hd⟩

theorem commandIf_nodup (b : Bool) (c : Instr) : (commandIf b c).Nodup := by unfold commandIf; cases b <;> simp

/-- No expiry is queued twice. -/
theorem expiries_nodup (s : State) : s.expiries.Nodup := by
  unfold State.expiries
  simp only [List.nodup_append', List.disjoint_left]
  refine ⟨⟨⟨⟨commandIf_nodup _ _, ?_, ?_⟩, ?_, ?_⟩, ?_, ?_⟩, commandIf_nodup _ _, ?_⟩
  · refine nodup_flatMap _ _ (List.nodup_finRange _) (fun _ => commandIf_nodup _ _) fun x y hne c hc hd => ?_
    rw [mem_commandIf] at hc hd; simp_all
  · intro c hc hd; simp only [mem_commandIf, List.mem_flatMap] at hc hd; obtain ⟨w, _, hd, _⟩ := hd; simp_all
  · refine nodup_flatMap _ _ (List.nodup_finRange _) (fun _ => commandIf_nodup _ _) fun x y hne c hc hd => ?_
    rw [mem_commandIf] at hc hd; simp_all
  · intro c hc hd; simp only [mem_commandIf, List.mem_flatMap, List.mem_append] at hc hd
    obtain ⟨w, _, rfl, _⟩ := hd; simp at hc
  · refine nodup_flatMap _ _ (List.nodup_finRange _) (fun _ => ?_) fun x y hne c hc hd => ?_
    · simp only [List.nodup_append', List.disjoint_left, commandIf_nodup, true_and]
      intro c hc hd; rw [mem_commandIf] at hc hd; rw [hc.1] at hd; exact absurd hd.1 (by simp)
    · simp only [List.mem_append, mem_commandIf] at hc hd
      rcases hc with ⟨rfl, _⟩ | ⟨rfl, _⟩ <;> simp [hne] at hd
  · intro c hc hd; simp only [mem_commandIf, List.mem_flatMap, List.mem_append] at hc hd
    obtain ⟨w, _, ⟨rfl, _⟩ | ⟨rfl, _⟩⟩ := hd <;> simp at hc
  · intro c hc hd; simp only [mem_commandIf, List.mem_flatMap, List.mem_append] at hc hd
    obtain ⟨rfl, _⟩ := hd; simp at hc

theorem timerDue_iff (t : Option Timer) : timerDue t = true ↔ ∃ x, t = some x ∧ x.due = true := by
  cases t <;> simp [timerDue]

theorem powerDue_iff (p : Power) : p.due = true ↔ ∃ x, p = .counting x ∧ x.due = true := by
  cases p <;> simp [Power.due]

/-- What a tick queues: the expiry of every timer that runs out, and nothing more. -/
theorem mem_expiries (s : State) (c : Instr) : c ∈ s.expiries ↔
        (∃ x, c = .coldResetEnd ∧ s.power = .counting x ∧ x.due = true)
        ∨ (∃ (w : WindowNumber) (x : Timer), c = .leaseExpiry w ∧ s.windows[w].lease = some x ∧ x.due = true)
        ∨ (∃ (slot : Slot) (x : Timer), c = .discardExpiry slot ∧ s.entries[slot].discard = some x ∧ x.due = true)
        ∨ (∃ (n : SegmentNumber) (x : RunningCycle), c = .cycleTimeout n ∧ s.engines[n].current = some x ∧ x.timer.due = true)
        ∨ (∃ (n : SegmentNumber) (x : Timer), c = .resetPulseExpiry n ∧ s.engines[n].resetPulse = some x ∧ x.due = true)
        ∨ ∃ x, c = .ackTimerExpiry ∧ s.notices.ackTimer = some x ∧ x.due = true := by
  simp only [State.expiries, List.mem_append, List.mem_flatMap, mem_commandIf, timerDue_iff, powerDue_iff, allWindows, allSlots, allSegments,
    List.mem_finRange, true_and, Option.map_eq_some_iff]
  constructor
  · rintro ((((⟨rfl, x, h⟩ | ⟨w, rfl, x, h⟩) | ⟨w, rfl, x, h⟩) | ⟨w, ⟨rfl, x, ⟨y, h, rfl⟩, h'⟩ | ⟨rfl, x, h⟩⟩) | ⟨rfl, x, h⟩)
    · exact .inl ⟨x, rfl, h⟩
    · exact .inr (.inl ⟨w, x, rfl, h⟩)
    · exact .inr (.inr (.inl ⟨w, x, rfl, h⟩))
    · exact .inr (.inr (.inr (.inl ⟨w, y, rfl, h, h'⟩)))
    · exact .inr (.inr (.inr (.inr (.inl ⟨w, x, rfl, h⟩))))
    · exact .inr (.inr (.inr (.inr (.inr ⟨x, rfl, h⟩))))
  · rintro (⟨x, rfl, h⟩ | ⟨w, x, rfl, h⟩ | ⟨w, x, rfl, h⟩ | ⟨w, x, rfl, h, h'⟩ | ⟨w, x, rfl, h⟩ | ⟨x, rfl, h⟩)
    · exact .inl (.inl (.inl (.inl ⟨rfl, x, h⟩)))
    · exact .inl (.inl (.inl (.inr ⟨w, rfl, x, h⟩)))
    · exact .inl (.inl (.inr ⟨w, rfl, x, h⟩))
    · exact .inl (.inr ⟨w, .inl ⟨rfl, _, ⟨x, h, rfl⟩, h'⟩⟩)
    · exact .inl (.inr ⟨w, .inr ⟨rfl, x, h⟩⟩)
    · exact .inr ⟨rfl, x, h⟩

/-! ### Expiries that come too early -/

theorem leaseExpiry_early (s : State) (w : WindowNumber) (h : mayExpire s.windows[w].lease = false) :
    execLeaseExpiry w s = .next s := by
  simp [-Fin.getElem_fin, execLeaseExpiry, h]

theorem discardExpiry_early (s : State) (slot : Slot) (h : mayExpire s.entries[slot].discard = false) :
    execDiscardExpiry slot s = .next s := by
  simp [-Fin.getElem_fin, execDiscardExpiry, h]

theorem cycleTimeout_early (s : State) (n : SegmentNumber)
    (h : mayExpire (s.engines[n].current.map RunningCycle.timer) = false) : execCycleTimeout n s = .next s := by
  simp only [execCycleTimeout, State.timeOut, h]; rfl

theorem resetPulseExpiry_early (s : State) (n : SegmentNumber) (h : mayExpire s.engines[n].resetPulse = false) :
    execResetPulseExpiry n s = .next s := by
  simp only [execResetPulseExpiry, State.endPulse, h]; rfl

theorem ackTimerExpiry_early (s : State) (h : mayExpire s.notices.ackTimer = false) : execAckTimerExpiry s = .next s := by
  simp only [execAckTimerExpiry, h]; rfl

theorem coldResetEnd_early (s : State) (x : Timer) (hp : s.power = .counting x) (h : x.mayExpire = false) :
    execColdResetEnd s = .next s := by
  simp [execColdResetEnd, hp, h]

end Sys2Proof.Machine
end

