-- ==== Sys2Proof/Tests/Slice0.lean ====
section
/-! SUPPORT. Tests: ill-formed commands that the check refuses, one small step of each kind of command, and for each obligation that has
hypotheses a state and operands that meet them together, clause by clause. -/

namespace Sys2Proof.Tests

open Sys2Proof Sys2Proof.Machine Sys2Proof.Safety

/-! ### Ill-formed commands -/

theorem test_ill_formed_cut_header : (Instr.read (.cut [0, 0, 0]) []).wellFormed = false
    ∧ (Instr.write (.cut [0]) [0]).wellFormed = false ∧ (Instr.noticeAck (.cut [0, 0, 0]) []).wellFormed = false
    ∧ (Instr.unknownCommand (.cut []) [0x17]).wellFormed = false := by decide

theorem test_ill_formed_command_without_header :
    ([Instr.openWindow (.cut []) [], .amend (.cut []) [], .renew (.cut []) [], .freeze (.cut []) [], .close (.cut []) [],
      .closeWithAbandon (.cut []) [7, 1], .query (.cut []) [], .lookup (.cut []) [], .bringOnline (.cut []) [],
      .takeOffline (.cut []) [], .resume (.cut []) [], .resetSegment (.cut []) [], .segmentStatus (.cut []) [],
      .pendingStatus (.cut []) [], .cancelRequester (.cut []) [], .resumeNotices (.cut []) [], .noticeStatus (.cut []) [],
      .readSetting (.cut []) [], .writeSetting (.cut []) [], .noticeTarget (.cut []) [], .segnWidth (.cut []) [],
      .managementSet (.cut []) [], .identify (.cut []) [], .warmReset (.cut []) []].map Instr.wellFormed).all (· == false) = true := by
  decide

theorem test_ill_formed_close : (Instr.close (header 0 3) [7, 1]).wellFormed = false
    ∧ (Instr.closeWithAbandon (header 0 3) [7, 0]).wellFormed = false := by decide

theorem test_ill_formed_write_setting : (Instr.writeSetting (header 0 7) [0x07, 0, 0, 0, 0, 0]).wellFormed = false := by decide

theorem test_ill_formed_unknown_command : (Instr.unknownCommand (header 0 1) [0x53]).wellFormed = false := by decide

theorem test_ill_formed_unknown_kind : (Instr.askOfUnknownKind [0x04, 0, 1, 0, 0]).wellFormed = false := by decide

/-! ### Small states -/

/-- A MEMORY window of 32 bytes on segment 1. -/
def window : Window :=
  { Window.cold with state := .opened, generation := 1, base := 0x1000, limit := 0x101F, segment := 1, writePolicy := .posted }

/-- An engine that is ONLINE. -/
def online : Engine := { Engine.cold with state := .online }

/-- Window 7 open, segment 1 ONLINE. -/
def mapped : State := (State.reset.setWindow 7 window).setEngine 1 online

/-- `mapped` with the window's record changed. -/
def mappedWith (f : Window → Window) : State := (State.reset.setWindow 7 (f window)).setEngine 1 online

/-- Segment 0 ONLINE and the default route of MEMORY. -/
def routed : State :=
  { State.reset with settings := { Settings.initial with defaultRouteMemory := some 0 }, engines := State.reset.engines.set 0 online }

/-- A READ of four bytes by requester 4, and a WRITE of one byte. -/
def reading : Ask := ⟨4, .read, .memory, 0x101C, 4, none⟩
def writing : Ask := ⟨4, .write, .memory, 0x101F, 1, some [0xA5]⟩

/-- What decode fixes for the two through `window`. -/
def readTarget : Target := ⟨.window 7 1, 1, 0x1C, .ones, false⟩
def writeTarget : Target := ⟨.window 7 1, 1, 0x1F, .ones, true⟩

/-- The entry of `reading`, QUEUED. -/
def entry : Entry :=
  { Entry.cold with
    state := .queued, requester := 4, address := 0x101C, count := 4, route := .window 7 1, segment := 1, downstream := 0x1C }

/-- The entry COMPLETE with its bytes. -/
def done : Entry := { entry with state := .complete, outcome := some .ok, readData := some [1, 2, 3, 4], discard := some ⟨16, 64⟩ }

/-- A state of `mapped` that holds one entry at slot 3, with the window's count and the engine as given. -/
def holding (e : Entry) (g : Engine) : State :=
  ((State.reset.setWindow 7 { window with inFlight := 1 }).setEngine 1 g).setEntry 3 e

/-- The entry in its queue; in flight with its first cycle at width 8; and finished. -/
def queued : State := holding entry { online with queue := [.reference 3] }
def firstCycle : RunningCycle := ⟨⟨.memory, .read, 0x1C, .low, []⟩, ⟨16, 1⟩, 0⟩
def issued (remaining : List Cycle) : State :=
  { holding { entry with state := .issued }
      { online with inFlight := some (.reference 3), current := some firstCycle, remaining, noResponses := 3 } with
    cyclesStarted := 1 }
def complete : State := holding done online

/-- The last unit of the entry's discard timer, of its first cycle, and of the pulse of a RESET-SEGMENT of it. -/
def discarding : State := holding { done with discard := some ⟨1, 64⟩ } online
def timingOut : State := (issued []).setEngine 1 { (issued []).engines[1] with current := some ⟨firstCycle.cycle, ⟨1, 1⟩, 0⟩ }
/-- A later cycle current, after the first one has ended. -/
def later : State :=
  { (issued []).setEngine 1 { (issued []).engines[1] with current := some { firstCycle with number := 1 } } with cyclesStarted := 2 }
def resetting (pulse : Timer) : State := holding done { Engine.cold with state := .resetting, returnState := .online, resetPulse := some pulse }

/-- The 1 ms count after the rise of PWRGOOD. -/
def counting (left : Timer) (warmN : Bool) : State := { State.reset.coldReset with power := .counting left, warmN }

/-- A NOTICE unit with one notice, delivery to requester 2 as given. -/
def notice : Notice := ⟨.segmentFaulted 1 .targetError, 1, none⟩
def noticed (delivery : Delivery) (sequence : Option Byte) (timer : Option Timer) (attempts : Nat) : State :=
  { State.reset with
    settings := { Settings.initial with noticeTarget := some 2 }
    notices := { NoticeUnit.cold with
      queue := [{ notice with sequence }], delivery, nextSequence := 1, attempts, ackTimer := timer } }

/-- The state a command leaves. -/
def after (c : Instr) (s : State) : State :=
  match exec c s with
  | .next t => t
  | .fault _ => s
  | .refused _ => s

/-- The answer a command adds. -/
def answer (c : Instr) (s : State) : Option Answer := (after c s).answers.getLast?.map Reply.answer

/-! ### One step of each command -/

theorem test_read_queues : answer (arrival reading) mapped = some (.again .pending)
    ∧ (after (arrival reading) mapped).entries[0].state = .queued
    ∧ (after (arrival reading) mapped).engines[1].queue = [.reference 0]
    ∧ (after (arrival reading) mapped).windows[7].inFlight = 1 := by decide

theorem test_read_collects : answer (arrival reading) complete = some (.data [1, 2, 3, 4])
    ∧ (after (arrival reading) complete).entries[3].state = .free
    ∧ (after (arrival reading) complete).windows[7].inFlight = 0 := by decide

theorem test_write_posts : answer (arrival writing) mapped = some .taken
    ∧ (after (arrival writing) mapped).engines[1].queue = [.posted ⟨.window 7 1, 0x1F, 1, [0xA5], .ones⟩] := by decide

theorem test_read_of_an_unmapped_address :
    answer (arrival { reading with address := 0x1020 }) mapped = some (.fault .unmapped) := by decide

theorem test_notice_ack : answer (.noticeAck (header 2 1) [0]) (noticed .awaitAck (some 0) (some ⟨10, 100⟩) 1) = some .taken
    ∧ (after (.noticeAck (header 2 1) [0]) (noticed .awaitAck (some 0) (some ⟨10, 100⟩) 1)).notices.queue = [] := by decide

theorem test_open : answer (manageAsk .openWindow 0
      [0xFF, 0x00, 0x01, 0x00, 0x00, 0x01, 0x04, 0, 0, 0, 0x0A, 0x00, 0x00, 0x10, 0, 0, 0x1F, 0x10, 0, 0, 0x00, 0x02, 0, 0])
      State.reset = some (.managed [0x00, 0x01])
    ∧ (after (manageAsk .openWindow 0
        [0xFF, 0x00, 0x01, 0x00, 0x00, 0x01, 0x04, 0, 0, 0, 0x0A, 0x00, 0x00, 0x10, 0, 0, 0x1F, 0x10, 0, 0, 0x00, 0x02, 0, 0])
        State.reset).windows[0]
      = { window with owners := [4], lease := some ⟨10, 1000⟩, segmentBase := 0x200 } := by decide

theorem test_amend : answer (manageAsk .amend 0 ([7, 0x04, 2, 0, 0, 0, 0, 0, 0, 0] ++ List.replicate 12 0)) mapped
      = some (.managed [7, 1])
    ∧ (after (manageAsk .amend 0 ([7, 0x04, 2, 0, 0, 0, 0, 0, 0, 0] ++ List.replicate 12 0)) mapped).windows[7]
      = { window with segment := 2 } := by decide

theorem test_renew : (after (manageAsk .renew 0 [7, 0xE8, 0x03]) mapped).windows[7].lease = some ⟨1000, 1000⟩ := by decide

theorem test_freeze : answer (manageAsk .freeze 0 [7]) mapped = some (.managed [7, 1, 0])
    ∧ (after (manageAsk .freeze 0 [7]) mapped).windows[7].frozen = true := by decide

theorem test_close : answer (manageAsk .close 0 [7, 0]) queued = some (.managed [1, 2])
    ∧ (after (manageAsk .close 0 [7, 0]) queued).windows[7].state = .closing := by decide

theorem test_close_with_abandon : answer (manageAsk .closeWithAbandon 0 [7, 1]) queued = some (.managed [1, 2])
    ∧ (after (manageAsk .closeWithAbandon 0 [7, 1]) queued).entries[3].outcome = some .abandoned
    ∧ (after (manageAsk .closeWithAbandon 0 [7, 1]) queued).engines[1].queue = [] := by decide

theorem test_query : answer (manageAsk .query 0 [7]) mapped
    = some (.managed [1, 1, 0, 1, 0, 0, 0, 0, 0, 0, 0, 0, 0, 0, 0, 0, 0x00, 0x10, 0, 0, 0x1F, 0x10, 0, 0, 0, 0, 0, 0]) := by decide

theorem test_lookup : answer (manageAsk .lookup 0 [0, 0x10, 0x10, 0, 0]) mapped = some (.managed [1, 7, 1, 1, 0])
    ∧ answer (manageAsk .lookup 0 [0, 0x20, 0x10, 0, 0]) mapped = some (.managed [0, 0, 0, 0, 0]) := by decide

theorem test_bring_online : (after (manageAsk .bringOnline 0 [2]) State.reset).engines[2].state = .online := by decide

theorem test_take_offline : (after (manageAsk .takeOffline 0 [1]) mapped).engines[1].state = .offline
    ∧ answer (manageAsk .takeOffline 0 [1]) queued = some (.fault .busy) := by decide

theorem test_resume : answer (manageAsk .resume 0 [1]) mapped = some (.fault .wrongState) := by decide

theorem test_reset_segment : answer (manageAsk .resetSegment 0 [1]) queued = some (.managed [3, 1, 1, 0])
    ∧ (after (manageAsk .resetSegment 0 [1]) queued).entries[3].outcome = some .segmentReset
    ∧ (after (manageAsk .resetSegment 0 [1]) queued).engines[1].resetPulse = some ⟨20, 1⟩ := by decide

theorem test_segment_status : answer (manageAsk .segmentStatus 0 [1]) queued = some (.managed [1, 0xFF, 0, 0, 1, 0, 0]) := by decide

theorem test_pending_status : answer (manageAsk .pendingStatus 0 [3]) complete
    = some (.managed [3, 4, 1, 0, 4, 7, 1, 1, 0, 0, 1, 16, 0x1C, 0x10, 0, 0, 0x1C, 0, 0, 0]) := by decide

theorem test_pending_summary : answer (manageAsk .pendingStatus 0 [0xFF]) queued
    = some (.managed [0, 0, 0, 0x21, 0, 0, 0, 0, 0, 0, 0, 0, 0, 0, 0, 0, 15]) := by decide

theorem test_cancel_requester : answer (manageAsk .cancelRequester 0 [4]) queued = some (.managed [1, 0, 0])
    ∧ (after (manageAsk .cancelRequester 0 [4]) queued).engines[1].queue = []
    ∧ (after (manageAsk .cancelRequester 0 [4]) queued).windows[7].inFlight = 0 := by decide

theorem test_resume_notices : answer (manageAsk .resumeNotices 0 []) (noticed .stalled (some 0) none 3) = some (.managed [1]) := by
  decide

theorem test_notice_status : answer (manageAsk .noticeStatus 0 []) (noticed .stalled (some 0) none 3)
    = some (.managed [3, 1, 0, 1, 3]) := by decide

theorem test_read_setting : answer (manageAsk .readSetting 0 [0x14, 0x03]) State.reset
    = some (.managed [0x14, 0x03, 20, 0, 0, 0]) := by decide

theorem test_write_setting : answer (manageAsk .writeSetting 0 [0x02, 0x00, 16, 0, 0, 0]) State.reset
      = some (.managed [0x02, 0x00, 4, 0, 0, 0, 16, 0, 0, 0])
    ∧ answer (manageAsk .writeSetting 0 [0x02, 0x00, 17, 0, 0, 0]) State.reset = some (.fault .badOperand) := by decide

theorem test_notice_target : (after (settingAsk .noticeTarget 0 [0x00, 0x1F, 0, 0, 0]) State.reset).notices.delivery = .idle := by
  decide

theorem test_segn_width : answer (settingAsk .segnWidth 0 [0x01, 16, 0, 0, 0]) mapped = some (.fault .busy)
    ∧ (after (settingAsk .segnWidth 0 [0x02, 16, 0, 0, 0]) mapped).settings.segments[2].width = .sixteen := by decide

theorem test_management_set :
    answer (settingAsk .managementSet 0 [0x00, 0, 0, 0, 0]) State.reset = some (.fault .badOperand)
    ∧ (after (settingAsk .managementSet 0 [0x00, 0, 0, 0, 0x80]) State.reset).settings.managementSet = 0x80000000#32 := by decide

theorem test_identify : answer (manageAsk .identify 0 []) State.reset
    = some (.managed [0x6F, 0x5A, 0x44, 0x0B, 2, 48, 16, 4, 32, 16, 8, 16]) := by decide

theorem test_warm_reset : (after (manageAsk .warmReset 0 []) queued).port = .restarting
    ∧ (after (manageAsk .warmReset 0 []) queued).answers = [⟨0, .managed []⟩]
    ∧ (after (manageAsk .warmReset 0 []) queued).entries[3].state = .free := by decide

theorem test_unknown_command : answer (.unknownCommand (header 0 1) [0x17]) State.reset = some (.fault .unknownCommand)
    ∧ answer (.unknownCommand (header 1 1) [0x17]) State.reset = some (.fault .notPermitted) := by decide

theorem test_warm_n : (after .warmNAssert mapped).port = .restarting ∧ (after .warmNAssert mapped).windows[7].state = .free
    ∧ (after .warmNRelease State.reset).port = .running := by decide

theorem test_pwrgood : (after .pwrgoodFall mapped).power = .off ∧ (after .pwrgoodFall mapped).windows[7].state = .free
    ∧ (after .pwrgoodRise (after .pwrgoodFall mapped)).power = .counting ⟨1000, 1⟩
    ∧ (after .coldResetEnd (counting ⟨1, 1⟩ false)).power = .on
    ∧ (after .coldResetEnd (counting ⟨1, 1⟩ true)).port = .restarting := by decide

theorem test_lease_expiry : (after (.leaseExpiry 7) (mappedWith fun w => { w with lease := some ⟨1, 1⟩ })).windows[7].state = .free
    ∧ (after (.leaseExpiry 7) (mappedWith fun w => { w with lease := some ⟨1, 1⟩ })).notices.queue
      = [⟨.windowRetired 7 1 .leaseExpired, 1, none⟩] := by decide

theorem test_discard_expiry : (after (.discardExpiry 3) discarding).entries[3].state = .free
    ∧ (after (.discardExpiry 3) discarding).notices.queue = [⟨.completionDiscarded 4 3 .read 0x101C, 1, none⟩] := by decide

theorem test_cycle_timeout : (after (.cycleTimeout 1) timingOut).entries[3].outcome = some .noResponse
    ∧ (after (.cycleTimeout 1) timingOut).engines[1].state = .faulted := by decide

/-- No timer expires with more than one of its units left (R1). -/
theorem test_early_expiries_change_nothing : after (.cycleTimeout 1) (issued []) = issued []
    ∧ after (.discardExpiry 3) complete = complete ∧ after (.resetPulseExpiry 1) (resetting ⟨2, 1⟩) = resetting ⟨2, 1⟩
    ∧ after .ackTimerExpiry (noticed .awaitAck (some 0) (some ⟨2, 1⟩) 3) = noticed .awaitAck (some 0) (some ⟨2, 1⟩) 3
    ∧ after (.leaseExpiry 7) (mappedWith fun w => { w with lease := some ⟨2, 1⟩ }) = mappedWith (fun w => { w with lease := some ⟨2, 1⟩ })
    ∧ after .coldResetEnd (counting ⟨2, 1⟩ false) = counting ⟨2, 1⟩ false := by and_intros <;> decide

theorem test_cycle_acknowledged : (after (.cycleAcknowledged ⟨1, 0⟩ 0xBEEF) (issued [])).entries[3].readData = some [0xEF]
    ∧ (after (.cycleAcknowledged ⟨1, 0⟩ 0xBEEF) (issued [⟨.memory, .read, 0x1D, .low, []⟩])).engines[1].kept = [0xEF] := by decide

theorem test_target_error : (after (.targetError ⟨1, 0⟩) (issued [])).entries[3].outcome = some .targetError
    ∧ (after (.targetError ⟨1, 0⟩) (issued [])).notices.queue = [⟨.segmentFaulted 1 .targetError, 1, none⟩] := by decide

/-- A signal for the first cycle leaves the later one as it is, and no reset gives a number again. -/
theorem test_late_signals : after (.cycleAcknowledged ⟨1, 0⟩ 0xBEEF) later = later ∧ after (.targetError ⟨1, 0⟩) later = later
    ∧ (after (.targetError ⟨1, 1⟩) later).entries[3].outcome = some .targetError
    ∧ (after (manageAsk .resetSegment 0 [1]) later).cyclesStarted = 2 ∧ (after .warmNAssert later).cyclesStarted = 2
    ∧ (after .pwrgoodFall later).cyclesStarted = 2 := by and_intros <;> decide

theorem test_reset_pulse_expiry :
    (after (.resetPulseExpiry 1) (resetting ⟨1, 1⟩)).engines[1].state = .online
    ∧ (after (.resetPulseExpiry 1) (resetting ⟨1, 1⟩)).engines[1].resetPulse = none := by decide

theorem test_ack_timer_expiry :
    (after .ackTimerExpiry (noticed .awaitAck (some 0) (some ⟨1, 1⟩) 3)).notices.delivery = .stalled := by decide

theorem test_take_head : (after (.takeHead 1) queued).engines[1].current = some firstCycle
    ∧ (after (.takeHead 1) queued).cyclesStarted = 1
    ∧ (after (.takeHead 1) queued).engines[1].remaining.length = 3
    ∧ (after (.takeHead 1) queued).entries[3].state = .issued := by decide

/-- The pins in the address phase of a MEMORY read, and in the data phase of an IO byte write at an odd address. -/
theorem test_pins : (issued []).segmentPins 1 .address
      = ⟨.driven (some 0x1C), .driven (some 0), .driven (some 0), .driven (some .high), .high, .high, .high⟩
    ∧ ((issued []).setEngine 1
        { (issued []).engines[1] with current := some ⟨⟨.io, .write, 0x1D, .high, [0xA5]⟩, ⟨1, 1⟩, 0⟩ }).segmentPins 1 .data
      = ⟨.driven none, .unstated, .driven (some 0xA5), .driven none, .high, .low, .high⟩ := by decide

theorem test_notice_send : (after .noticeSend (noticed .idle none none 0)).handed
    = [⟨2, 1, .segmentFaulted 1 .targetError, 1, false⟩] := by decide

theorem test_ask_of_unknown_kind : answer (.askOfUnknownKind [0x05, 0x1F, 0, 0]) State.reset = some (.fault .malformed)
    ∧ (after (.askOfUnknownKind [0x05]) State.reset).answers = [] := by decide

theorem test_message_leaves_port :
    (after (.messageLeavesPort .answer) { State.reset with answers := [⟨31, .fault .busy⟩] }).link = [[0x84, 0x1F, 0x01, 0x00, 0x28]]
    ∧ (after (.messageLeavesPort .notice) (after .noticeSend (noticed .idle none none 0))).link
      = [[0x90, 0x02, 11, 0x00, 1, 0x04, 1, 1, 0, 0x03, 0, 0, 0, 0, 0]] := by decide

theorem test_tick_expires :
    (after (.leaseExpiry 7) State.reset) = State.reset
    ∧ (State.tick (mappedWith fun w => { w with lease := some ⟨1, 1⟩ })).pending = [.leaseExpiry 7] := by decide

/-! ### Hypotheses that are met -/

/-- A table with one window that is not FREE is a Window Table. -/
theorem one_window (s : State) (w : WindowNumber) (r : Window) (hs : s.windows = (State.reset.setWindow w r).windows)
    (hr : WindowOk r) : WindowTableOk s := by
  have hv : ∀ v : WindowNumber, s.windows[v] = if v = w then r else Window.cold := by
    intro v
    rw [hs, window_after_set]
    split
    · rfl
    · simp [State.reset]
  constructor
  · intro v
    rw [hv]
    split
    · exact hr
    · exact ⟨by decide, by decide, by decide, by decide, by decide⟩
  · intro v u hne h1 h2
    rw [hv] at h1 h2
    split at h1
    · split at h2
      · rename_i a b; exact absurd (a.trans b.symm) hne
      · exact absurd h2 (by decide)
    · exact absurd h1 (by decide)

theorem window_ok : WindowOk window := ⟨by decide, by decide, by decide, by decide, by decide⟩

theorem mapped_windows : WindowTableOk mapped := one_window _ 7 window rfl window_ok

theorem meets_step_takes_the_front_command :
    ({ State.reset with pending := [.noticeSend, .warmNRelease] } : State).pending = .noticeSend :: [.warmNRelease] := rfl

theorem meets_idle_step : (mappedWith fun w => { w with lease := some ⟨1, 1⟩ }).pending = []
    ∧ Timer.due ⟨1, 1⟩ = true ∧ Timer.due ⟨1, 2⟩ = false ∧ Timer.due ⟨2, 1⟩ = false
    ∧ (counting ⟨1, 1⟩ false).pending = [] ∧ discarding.pending = [] ∧ timingOut.pending = [] ∧ (resetting ⟨1, 1⟩).pending = [] := by
  decide

/-- Two units of two microseconds: due with the fourth tick, not with the third, and in its last unit after two ticks, not after one. -/
theorem meets_timer_runs : 1 ≤ 2 ∧ ((Timer.tick 2)^[3] (Timer.start 2 2)).due = true ∧ 2 * 2 ≤ 3 + 1 ∧ 3 < 2 * 2
    ∧ ((Timer.tick 2)^[2] (Timer.start 2 2)).due = false ∧ ((Timer.tick 2)^[2] (Timer.start 2 2)).units = 1
    ∧ ((Timer.tick 2)^[1] (Timer.start 2 2)).units = 2 := by decide

theorem meets_messages_and_asks : (Instr.read (.cut [0x00, 0x01]) []).wellFormed = true
    ∧ (Instr.read (.cut [0x00, 0x01]) []).message = some [0x01, 0x00, 0x01] := by decide

theorem meets_messages_that_reach_no_block : ({ State.reset with power := .off } : State).power ≠ .on
    ∧ ([0x03] : List Byte).length < 2
    ∧ (2 ≤ ([0x03, 0x00] : List Byte).length ∧ State.reset.warmReset.power = .on ∧ State.reset.warmReset.port = .restarting) := by
  decide

/-- The edges of every check of a message: one step inside and one step outside. -/
theorem meets_malformed_length : Running State.reset
    ∧ ¬ MessageOk [0x04, 0x00] ∧ ¬ MessageOk [0x04, 0x00, 0x01] ∧ MessageOk [0x04, 0x00, 0x01, 0x00, 0x07]
    ∧ ¬ MessageOk [0x04, 0x00, 0x01, 0x00] ∧ ¬ MessageOk [0x04, 0x00, 0x01, 0x00, 0x07, 0x07]
    ∧ MessageOk [0x04, 0x1F, 0x01, 0x00, 0x07] ∧ ¬ MessageOk [0x04, 0x20, 0x01, 0x00, 0x07]
    ∧ ¬ MessageOk [0x04, 0x00, 0x01, 0x01, 0x07] ∧ ¬ MessageOk [0x05, 0x00, 0x01, 0x00, 0x07]
    ∧ ¬ MessageOk [0x03, 0x00, 0x00, 0x00] ∧ MessageOk [0x03, 0x00, 0x01, 0x00, 0x53]
    ∧ MessageOk ([0x03, 0x00, 25, 0x00] ++ List.replicate 25 0) ∧ ¬ MessageOk ([0x03, 0x00, 26, 0x00] ++ List.replicate 26 0) := by
  and_intros <;> decide

theorem meets_malformed_access :
    MessageOk [0x01, 0x00, 6, 0x00, 0x00, 32, 0xFF, 0xFF, 0xFF, 0xFF] ∧ ¬ MessageOk [0x01, 0x00, 6, 0x00, 0x00, 33, 0, 0, 0, 0]
    ∧ ¬ MessageOk [0x01, 0x00, 6, 0x00, 0x00, 0, 0, 0, 0, 0] ∧ ¬ MessageOk [0x01, 0x00, 6, 0x00, 0x02, 1, 0, 0, 0, 0]
    ∧ MessageOk [0x01, 0x00, 6, 0x00, 0x01, 4, 0xFC, 0xFF, 0, 0] ∧ ¬ MessageOk [0x01, 0x00, 6, 0x00, 0x01, 4, 0xFD, 0xFF, 0, 0]
    ∧ ¬ MessageOk [0x01, 0x00, 6, 0x00, 0x01, 1, 0, 0, 1, 0] ∧ MessageOk [0x02, 0x00, 7, 0x00, 0x00, 1, 0, 0, 0, 0, 0xA5]
    ∧ ¬ MessageOk [0x02, 0x00, 7, 0x00, 0x00, 2, 0, 0, 0, 0, 0xA5] := by
  and_intros <;> decide

theorem meets_messages_leave : ({ State.reset with answers := [⟨0, .taken⟩] } : State).answers = ⟨0, .taken⟩ :: []
    ∧ State.reset.answers = [] ∧ State.reset.handed = [] ∧ (after .noticeSend (noticed .idle none none 0)).handed ≠ [] := by decide

theorem asks_ok : AskOk reading ∧ AskOk writing ∧ AskOk { reading with count := 32 } ∧ ¬ AskOk { reading with count := 33 }
    ∧ AskOk ⟨0, .write, .io, 0xFFFC, 4, some [0, 0, 0, 0]⟩ ∧ ¬ AskOk ⟨0, .write, .io, 0xFFFD, 4, some [0, 0, 0, 0]⟩ := by
  and_intros <;> decide

theorem one_entry (e : Entry) (g : Engine) : SignaturesDistinct (holding e g) := by
  intro a b hne ha hb
  exfalso
  have hv : ∀ v : Slot, (holding e g).entries[v] = if v = 3 then e else Entry.cold := by
    intro v
    rw [holding, entry_after_set]
    split
    · rfl
    · simp [State.reset, State.setWindow, State.setEngine]
  rw [hv] at ha hb
  split at ha
  · split at hb
    · rename_i x y; exact hne (x.trans y.symm)
    · exact absurd hb (by decide)
  · exact absurd ha (by decide)

theorem meets_repeat_of_a_waiting_entry : Running queued ∧ AskOk reading ∧ SignaturesDistinct queued
    ∧ Matches queued.entries[(3 : Slot)] reading ∧ queued.entries[(3 : Slot)].state = .queued :=
  ⟨by decide, by decide, one_entry _ _, by decide, by decide⟩

theorem meets_repeat_of_a_complete_entry : Running complete ∧ AskOk reading ∧ SignaturesDistinct complete
    ∧ Matches complete.entries[(3 : Slot)] reading ∧ complete.entries[(3 : Slot)].state = .complete
    ∧ Delivers complete.entries[(3 : Slot)] (.data [1, 2, 3, 4]) :=
  ⟨by decide, by decide, one_entry _ _, by decide, by decide, by decide⟩

theorem meets_delayed_work : Running mapped ∧ AskOk reading ∧ WindowTableOk mapped ∧ IsNew mapped reading
    ∧ Passes mapped reading readTarget ∧ readTarget.posted = false ∧ mapped.entries[(0 : Slot)].state = .free
    ∧ quotaHeld mapped reading.requester < mapped.settings.pendingQuota :=
  ⟨by decide, by decide, mapped_windows, by decide, .inl ⟨7, by decide⟩, by decide, by decide, by decide⟩

/-- The quota is full with one entry where it is 1, and no slot is FREE where every entry waits. -/
theorem meets_delayed_work_refused :
    ({ queued with settings := { Settings.initial with pendingQuota := 1 } } : State).settings.pendingQuota ≤ quotaHeld queued 4
    ∧ ∀ slot : Slot, ({ mapped with entries := Vector.replicate 16 entry } : State).entries[slot].state ≠ .free := by decide

theorem meets_posted_writes : Running mapped ∧ AskOk writing ∧ WindowTableOk mapped ∧ IsNew mapped writing
    ∧ Passes mapped writing writeTarget ∧ writeTarget.posted = true ∧ mapped.engines[writeTarget.segment].postedCount < 8 :=
  ⟨by decide, by decide, mapped_windows, by decide, .inl ⟨7, by decide⟩, by decide, by decide⟩

theorem meets_posted_writes_refused : 8 ≤ (State.reset.setEngine 1
    { online with queue := List.replicate 8 (.posted ⟨.defaultRoute, 0, 1, [0], .ones⟩) }).engines[writeTarget.segment].postedCount := by
  decide

theorem meets_default_route : Running routed ∧ AskOk writing ∧ IsNew routed writing
    ∧ Passes routed { writing with address := 0xFFFFFF } ⟨.defaultRoute, 0, 0xFFFFFF, .ones, true⟩
    ∧ Misses routed { writing with address := 0x1000000 }
    ∧ MissRefused routed { writing with address := 0x1000000 } .unmapped
    ∧ MissRefused State.reset reading .unmapped
    ∧ MissRefused (routed.setWindow 7 window) { reading with address := 0xFFE } .straddle
    ∧ MissRefused { routed with engines := State.reset.engines } reading .segmentOffline :=
  ⟨by decide, by decide, by decide, .inr (by decide), by decide, by decide, by decide, by decide, by decide⟩

theorem meets_hit_window_refusals : Running mapped ∧ Hits mapped { reading with address := 0x101D } 7
    ∧ HitRefused mapped { reading with address := 0x101D } 7 .straddle
    ∧ HitRefused (mappedWith fun w => { w with state := .closing, inFlight := 1 }) reading 7 .windowClosing
    ∧ HitRefused (mappedWith fun w => { w with owners := [5] }) reading 7 .notPermitted
    ∧ HitRefused (State.reset.setWindow 7 window) reading 7 .segmentOffline
    ∧ HitRefused (mapped.setEngine 1 { online with state := .faulted }) reading 7 .segmentFaulted := by
  and_intros <;> decide

theorem meets_hit_window_tables : WindowTableOk mapped ∧ IsNew mapped { reading with address := 0x101D }
    ∧ WindowTableOk (mappedWith fun w => { w with state := .closing, inFlight := 1 }) :=
  ⟨mapped_windows, by decide, one_window _ 7 _ rfl ⟨by decide, by decide, by decide, by decide, by decide⟩⟩

def frozenState : State := mappedWith fun w => { w with frozen := true }

theorem meets_frozen_window : Running frozenState ∧ AskOk reading ∧ WindowTableOk frozenState ∧ IsNew frozenState reading
    ∧ Hits frozenState reading 7 ∧ lastByte reading ≤ frozenState.windows[(7 : WindowNumber)].limit
    ∧ frozenState.windows[(7 : WindowNumber)].state = .opened ∧ Admits frozenState.windows[(7 : WindowNumber)] 4
    ∧ frozenState.windows[(7 : WindowNumber)].frozen = true :=
  ⟨by decide, by decide, one_window _ 7 _ rfl ⟨by decide, by decide, by decide, by decide, by decide⟩, by decide, by decide,
    by decide, by decide, by decide, by decide⟩

theorem meets_counts : (2 : Byte) ≠ mapped.windows[(7 : WindowNumber)].generation
    ∧ [Route.window 7 1, .defaultRoute].count (.window 7 mapped.windows[(7 : WindowNumber)].generation) ≠ 0 := by decide

/-- The last MEMORY granule, with the longest lease and four owners, into record 47. -/
def opening : OpenOperands :=
  { window := some 47, space := .memory, segment := 3, writePolicy := .posted, absentPolicy := .fault, owners := [0, 1, 30, 31],
    lease := 65535, base := 0xFFFFFFF0, limit := 0xFFFFFFFF, segmentBase := 0xFFFFF0 }

theorem meets_open : Manages mapped 0 ∧ OpenEncodable opening ∧ OpenValid opening ∧ Chosen mapped opening.window 47
    ∧ ¬ Overlaps mapped 47 opening.space opening.base opening.limit
    ∧ Chosen mapped none 0 ∧ OpenValid { opening with space := .io, writePolicy := .delayed, base := 0xFFFC, limit := 0xFFFF, segmentBase := 0xFFFC } := by
  decide

theorem meets_open_refusals : ¬ OpenValid { opening with segmentBase := 0x1000000 } ∧ ¬ OpenValid { opening with owners := [1, 1] }
    ∧ ¬ OpenValid { opening with base := 0xFFFFFFF8 }
    ∧ (∃ w, (some 7 : Option WindowNumber) = some w ∧ mapped.windows[w].state ≠ .free)
    ∧ (∀ w : WindowNumber, ({ mapped with windows := Vector.replicate 48 window } : State).windows[w].state ≠ .free)
    ∧ (∃ w, Chosen mapped (some 47) w ∧ Overlaps mapped w .memory 0x1010 0x102F) :=
  ⟨by decide, by decide, by decide, ⟨7, by decide⟩, by decide, ⟨47, by decide⟩⟩

def amending : AmendOperands :=
  { window := 7, base := none, limit := some 0x102F, segment := none, segmentBase := none, writePolicy := none, absentPolicy := none,
    owners := some [] }

theorem meets_amend : Manages mapped 0 ∧ AmendEncodable amending ∧ mapped.windows[amending.window].state = .opened
    ∧ mapped.windows[amending.window].frozen = false ∧ WindowValid (amended amending mapped.windows[amending.window])
    ∧ ¬ Overlaps mapped 7 .memory 0x1000 0x102F ∧ State.reset.windows[amending.window].state ≠ .opened
    ∧ frozenState.windows[amending.window].frozen = true
    ∧ ¬ WindowValid (amended { amending with limit := some 0x1028 } mapped.windows[amending.window])
    ∧ Overlaps (mapped.setWindow 8 { window with base := 0x1020, limit := 0x102F }) 7 .memory 0x1000 0x102F := by
  decide

theorem meets_renew_freeze_close : Manages mapped 0 ∧ mapped.windows[(7 : WindowNumber)].state = .opened
    ∧ mapped.windows[(7 : WindowNumber)].inFlight = 0 ∧ queued.windows[(7 : WindowNumber)].inFlight ≠ 0
    ∧ (mappedWith fun w => { w with state := .closing, inFlight := 1 }).windows[(7 : WindowNumber)].state = .closing
    ∧ Manages frozenState 0 ∧ frozenState.windows[(7 : WindowNumber)].frozen = true ∧ Manages State.reset 0
    ∧ State.reset.windows[(7 : WindowNumber)].state = .free := by decide

/-- A timer with two units left may not expire, nor may one that is stopped. -/
theorem not_mayExpire : ¬ MayExpire none ∧ ∀ n, ¬ MayExpire (some ⟨2, n⟩) :=
  ⟨fun ⟨_, h, _⟩ => (nomatch h), fun _ ⟨_, h, k⟩ => by cases h; simp at k⟩

theorem meets_lease_expiry : MayExpire (mappedWith fun w => { w with lease := some ⟨1, 1000⟩ }).windows[(7 : WindowNumber)].lease
    ∧ (mappedWith fun w => { w with lease := some ⟨1, 1000⟩ }).windows[(7 : WindowNumber)].inFlight = 0
    ∧ (mappedWith fun w => { w with lease := some ⟨1, 1000⟩, inFlight := 1 }).windows[(7 : WindowNumber)].inFlight ≠ 0
    ∧ ¬ MayExpire mapped.windows[(7 : WindowNumber)].lease
    ∧ ¬ MayExpire (mappedWith fun w => { w with lease := some ⟨2, 1⟩ }).windows[(7 : WindowNumber)].lease :=
  ⟨⟨_, rfl, by decide⟩, by decide, by decide, not_mayExpire.1, not_mayExpire.2 _⟩

theorem meets_query_and_lookup : Manages mapped 0 ∧ mapped.windows[(7 : WindowNumber)].owners.length ≤ 4 ∧ WindowTableOk mapped
    ∧ mapped.windows[(7 : WindowNumber)].base ≤ 0x101F ∧ 0x101F ≤ mapped.windows[(7 : WindowNumber)].limit
    ∧ (∀ w : WindowNumber, ¬ Hits routed { reading with address := 0xFFFFFF } w) ∧ routeSetting routed.settings .memory = some 0
    ∧ routeSetting mapped.settings .memory = none ∧ addressMaximum .memory < 0x1000000 :=
  ⟨by decide, by decide, mapped_windows, by decide, by decide, by decide, by decide, by decide, by decide⟩

theorem meets_frozen_windows_are_kept : WindowOk frozenState.windows[(7 : WindowNumber)]
    ∧ frozenState.windows[(7 : WindowNumber)].frozen = true ∧ Instr.warmNAssert ≠ .pwrgoodFall :=
  ⟨⟨by decide, by decide, by decide, by decide, by decide⟩, by decide, by decide⟩

theorem meets_pending_status : Manages complete 0 ∧ complete.entries[(3 : Slot)].route = .window 7 1
    ∧ complete.entries[(3 : Slot)].outcome = some .ok ∧ complete.entries[(3 : Slot)].discard = some ⟨16, 64⟩
    ∧ complete.entries[(15 : Slot)].state = .free ∧ queued.entries[(3 : Slot)].state ≠ .complete := by decide

theorem meets_cancel_and_discard : Manages queued 0 ∧ MayExpire discarding.entries[(3 : Slot)].discard
    ∧ ¬ MayExpire queued.entries[(3 : Slot)].discard :=
  ⟨by decide, ⟨⟨1, 64⟩, rfl, by decide⟩, not_mayExpire.1⟩

theorem meets_width_sixteen : ∀ j : Job, j = ⟨.memory, .write, 0x1F, 4, [1, 2, 3, 4]⟩ → 1 ≤ j.count ∧ j.data.length = j.count
    ∧ j.divide .sixteen = [⟨.memory, .write, 0x1F, .high, [1]⟩, ⟨.memory, .write, 0x20, .both, [2, 3]⟩,
        ⟨.memory, .write, 0x22, .low, [4]⟩] := by
  rintro _ rfl; decide

theorem meets_engine_takes_the_head : queued.engines[(1 : SegmentNumber)].state = .online
    ∧ queued.engines[(1 : SegmentNumber)].inFlight = none ∧ queued.engines[(1 : SegmentNumber)].queue = .reference 3 :: []
    ∧ mapped.engines[(1 : SegmentNumber)].queue = [] ∧ (issued []).engines[(1 : SegmentNumber)].inFlight ≠ none
    ∧ State.reset.engines[(1 : SegmentNumber)].state ≠ .online := by decide

/-- Outputs: PWRGOOD low, high with no cycle, and high with a read cycle, a word cycle and a write cycle in IO. -/
theorem meets_segment_outputs : State.reset.coldReset.power = .off ∧ (issued []).power ≠ .off
    ∧ State.reset.engines[(1 : SegmentNumber)].current = none ∧ (issued []).engines[(1 : SegmentNumber)].current = some firstCycle
    ∧ (∀ phase, (State.reset.coldReset.segmentPins 1 phase).rst = .low ∧ (State.reset.segmentPins 1 phase).rst = .low
        ∧ ((issued []).segmentPins 1 phase).rst = .high)
    ∧ ((Cycle.mk .io .write 0x1E .both [1, 2]).dataPins .high).dataHigh = .driven (some 2)
    ∧ ((Cycle.mk .io .write 0x1E .both [1, 2]).addressPins .high).dataLow = .driven (some 1)
    ∧ ((Cycle.mk .io .write 0x1E .both [1, 2]).addressPins .high).ioSel = .driven (some .low) := by
  refine ⟨by decide, by decide, by decide, by decide, fun phase => ?_, by decide, by decide, by decide⟩
  cases phase <;> decide

theorem meets_results : queued.entries[(3 : Slot)].orphaned = false
    ∧ (holding { entry with state := .issued, orphaned := true } online).entries[(3 : Slot)].orphaned = true := by decide

/-- The last microsecond of a cycle whose engine has three no-responses, and the first one of a cycle. -/
theorem meets_cycle_timeout : timingOut.engines[(1 : SegmentNumber)].current = some ⟨firstCycle.cycle, ⟨1, 1⟩, 0⟩
    ∧ timingOut.engines[(1 : SegmentNumber)].inFlight = some (.reference 3)
    ∧ timingOut.settings.segments[(1 : SegmentNumber)].noResponseLimit ≤ timingOut.engines[(1 : SegmentNumber)].noResponses + 1
    ∧ ¬ MayExpire (State.reset.engines[(1 : SegmentNumber)].current.map RunningCycle.timer) :=
  ⟨by decide, by decide, by decide, not_mayExpire.1⟩

theorem meets_cycles : (issued []).engines[(1 : SegmentNumber)].current = some firstCycle ∧ firstCycle.number = 0
    ∧ (∀ x ∈ later.engines[(1 : SegmentNumber)].current, x.number ≠ 0)
    ∧ (issued []).engines[(1 : SegmentNumber)].remaining = []
    ∧ (issued []).engines[(1 : SegmentNumber)].inFlight = some (.reference 3)
    ∧ (issued []).settings.segments[(1 : SegmentNumber)].noResponseLimit ≤ (issued []).engines[(1 : SegmentNumber)].noResponses + 1
    ∧ 0 + 1 < (issued []).settings.segments[(1 : SegmentNumber)].noResponseLimit
    ∧ (issued []).settings.segments[(1 : SegmentNumber)].haltOnError = true
    ∧ (issued [firstCycle.cycle]).engines[(1 : SegmentNumber)].remaining = firstCycle.cycle :: [] := by decide

theorem meets_segment_commands : Manages queued 0 ∧ queued.engines[(1 : SegmentNumber)].state = .online
    ∧ queued.engines[(1 : SegmentNumber)].queue ≠ [] ∧ mapped.engines[(1 : SegmentNumber)].queue = []
    ∧ mapped.engines[(1 : SegmentNumber)].inFlight = none ∧ mapped.engines[(0 : SegmentNumber)].state = .offline
    ∧ (mapped.setEngine 1 { online with state := .faulted }).engines[(1 : SegmentNumber)].state = .faulted
    ∧ (mapped.resetSegment 1).engines[(1 : SegmentNumber)].state = .resetting := by decide

theorem meets_reset_segment : ReferencesOk queued := by
  have hn : ∀ n : SegmentNumber, queued.engines[n] = if n = 1 then { online with queue := [.reference 3] } else Engine.cold := by decide
  have he : ∀ slot : Slot, queued.entries[slot] = if slot = 3 then entry else Entry.cold := by decide
  constructor
  · intro n; rw [hn]; split <;> decide
  · intro n slot h
    rw [hn] at h
    split at h
    · rename_i hn'; subst hn'
      have : slot = 3 := by simpa [referencedSlots] using h
      subst this; decide
    · exact absurd h (by simp [referencedSlots, Engine.cold])
  · intro n slot h
    rw [hn] at h
    split at h <;> exact absurd h (by simp [online, Engine.cold])
  · intro slot h
    rw [he] at h
    split at h
    · rename_i hs; subst hs; decide
    · exact absurd h (by decide)
  · intro slot h
    rw [he] at h
    split at h <;> exact absurd h (by decide)

theorem meets_the_end_of_a_restart : MayExpire (resetting ⟨1, 1⟩).engines[(1 : SegmentNumber)].resetPulse
    ∧ ¬ MayExpire (resetting ⟨2, 1⟩).engines[(1 : SegmentNumber)].resetPulse
    ∧ ¬ MayExpire State.reset.engines[(0 : SegmentNumber)].resetPulse ∧ State.reset.warmReset.port = .restarting
    ∧ (∀ n : SegmentNumber, ({ State.reset with port := .restarting } : State).engines[n].state ≠ .resetting) :=
  ⟨⟨_, rfl, by decide⟩, not_mayExpire.2 _, not_mayExpire.1, by decide, by decide⟩

/-- Coalescing behind a head in flight, into 254 and into 255; a queue of 15 notices and one of 16. -/
theorem meets_raises : (NoticeUnit.raise { NoticeUnit.cold with queue := [notice, { notice with repeats := 250 }], delivery := .awaitAck }
      notice.news 8).queue = [notice, { notice with repeats := 255 }]
    ∧ (NoticeUnit.raise { NoticeUnit.cold with queue := List.replicate 15 notice } (.segmentFaulted 2 .targetError) 1).queue.length = 16
    ∧ (NoticeUnit.raise { NoticeUnit.cold with queue := List.replicate 16 notice } (.segmentFaulted 2 .targetError) 1).overrun = true := by
  decide

theorem meets_the_head_is_sent : (noticed .idle none none 0).settings.noticeTarget = some 2
    ∧ (noticed .idle none none 0).notices.delivery = .idle ∧ (noticed .idle none none 0).notices.queue = [notice]
    ∧ State.reset.settings.noticeTarget = none ∧ (noticed .idle (some 0) none 0).notices.queue = [{ notice with sequence := some 0 }] := by
  decide

theorem meets_acknowledgements : Running (noticed .awaitAck (some 0) none 1) ∧ (noticed .awaitAck (some 0) none 1).settings.noticeTarget = some 2
    ∧ (noticed .awaitAck (some 0) none 1).notices.delivery = .awaitAck
    ∧ (noticed .awaitAck (some 0) none 1).notices.queue = [{ notice with sequence := some 0 }]
    ∧ (noticed .idle (some 0) none 1).notices.delivery ≠ .awaitAck ∧ State.reset.settings.noticeTarget ≠ some 2 := by decide

theorem meets_ack_timer : MayExpire (noticed .awaitAck (some 0) (some ⟨1, 100⟩) 2).notices.ackTimer
    ∧ ¬ MayExpire (noticed .awaitAck (some 0) (some ⟨2, 1⟩) 2).notices.ackTimer ∧ ¬ MayExpire State.reset.notices.ackTimer :=
  ⟨⟨_, rfl, by decide⟩, not_mayExpire.2 _, not_mayExpire.1⟩

theorem meets_merge : MergesTo [] [] ∧ MergesTo [notice] [notice]
    ∧ MergesTo [notice, { notice with repeats := 2 }] [{ notice with repeats := 3 }] :=
  ⟨.inl ⟨rfl, rfl⟩, .inr (.inl ⟨notice, [], rfl, by decide, rfl⟩),
    .inr (.inr ⟨notice, [], { notice with repeats := 2 }, [], rfl, by decide, rfl, rfl⟩)⟩

theorem meets_notice_target : Manages (noticed .awaitAck (some 0) (some ⟨1, 1⟩) 1) 0 ∧ Manages State.reset 0
    ∧ State.reset.notices.delivery = .disabled ∧ (noticed .idle none none 0).notices.delivery = .idle
    ∧ (noticed .stalled (some 0) none 3).notices.delivery = .stalled := by decide

theorem meets_permission : Running State.reset ∧ State.reset.settings.managementSet.getLsbD (1 : Requester).val = false
    ∧ State.reset.settings.managementSet.getLsbD (0 : Requester).val = true ∧ (0x17 : Byte) ∉ operandLengths.map Prod.fst
    ∧ (List.replicate 24 (0 : Byte)).length ≤ 24 := by decide

theorem meets_operand_blocks : (0x12, 3, true) ∈ operandLengths ∧ ¬ WindowByteOk 0x12 [48, 0, 0] ∧ WindowByteOk 0x12 [47, 0]
    ∧ ¬ WindowByteOk 0x12 [0xFF, 0, 0] ∧ WindowByteOk 0x10 [0xFF] ∧ ¬ WindowByteOk 0x10 [0xFE] ∧ (0x53, 0, false) ∈ operandLengths := by
  decide

/-- A block of OPEN with the space code 02h is the block of no operands. -/
theorem meets_open_fields : WindowByteOk 0x10 (0x00 :: 0x02 :: List.replicate 22 0)
    ∧ ∀ o, OpenEncodable o → (0x00 :: 0x02 :: List.replicate 22 0 : List Byte) ≠ openBlock o := by
  refine ⟨by decide, fun o ho h => ?_⟩
  have h1 := parseOpen_openBlock o ho
  rw [← h] at h1
  exact absurd h1 (by simp [parseOpen, openWindowOperand, windowOf, byteAt, Space.ofCode])

/-- Nor is a block of AMEND with bit 7 of its presence byte set. -/
theorem meets_amend_fields : WindowByteOk 0x11 (0x00 :: 0x80 :: List.replicate 20 0)
    ∧ ∀ o, AmendEncodable o → (0x00 :: 0x80 :: List.replicate 20 0 : List Byte) ≠ amendBlock o := by
  refine ⟨by decide, fun o ho h => ?_⟩
  have h1 := parseAmend_amendBlock o ho
  rw [← h] at h1
  exact absurd h1 (by simp [parseAmend, windowOperand, windowOf, byteAt])

theorem meets_operand_values : 2 ≤ (0x02 : Byte).toNat ∧ 4 ≤ (0x04 : Byte).toNat ∧ 16 ≤ (0x10 : Byte).toNat ∧ (0x10 : Byte) ≠ 0xFF
    ∧ 32 ≤ (0x20 : Byte).toNat ∧ 0x10000 ≤ 0xFFFFFFFF ∧ (∀ n : SegmentNumber, settingCode (.width n) ≠ (0x10, 0x04)) := by decide

/-- No setting has the code 09h. -/
theorem meets_no_setting : ∀ name, settingCode name ≠ (0x09, 0x00) := (ofCode_none_iff 0x09 0x00).2 rfl

theorem meets_write_setting : Manages mapped 0 ∧ admits (.resetPulse 3) 255 ∧ ¬ admits (.resetPulse 3) 256 ∧ ¬ admits (.resetPulse 3) 0
    ∧ admits .defaultRouteIo 0xFFFFFFFF ∧ ¬ admits .defaultRouteIo 4 ∧ admits (.width 1) 16 ∧ WidthBusy mapped (.width 1)
    ∧ ¬ WidthBusy mapped (.width 0) ∧ SettingName.width 1 ≠ .noticeTarget :=
  ⟨by decide, by simp [admits], by simp [admits], by simp [admits], by simp [admits], by simp [admits], by simp [admits],
    ⟨1, rfl, by decide⟩, fun h => by obtain ⟨n, h1, h2⟩ := h; cases h1; exact h2 (by decide), by decide⟩

theorem meets_refused_commands : ([0x03, 0x01, 0x01, 0x00, 0x53] : List Byte).head? = some 0x03
    ∧ exec (Instr.ofMessage [0x03, 0x01, 0x01, 0x00, 0x53]) State.reset = .next (State.reset.answer 1 (.fault .notPermitted))
    ∧ (State.reset.answer 1 (.fault .notPermitted)).answers = State.reset.answers ++ [⟨1, .fault .notPermitted⟩] := by
  refine ⟨rfl, ?_, rfl⟩
  rfl

theorem meets_resets : Manages State.reset 0 ∧ State.reset.power = .on
    ∧ (counting ⟨1, 1⟩ false).power = .counting ⟨1, 1⟩ ∧ (counting ⟨1, 1⟩ true).warmN = true ∧ 1 < (⟨2, 1⟩ : Timer).units
    ∧ (after .warmNAssert (after .pwrgoodFall State.reset)).warmN = true ∧ (after .pwrgoodFall State.reset).power = .off := by decide

theorem settings_ok : SettingsOk Settings.initial := by
  refine ⟨by decide, by decide, by decide, by decide, fun n => ?_⟩
  have h : Settings.initial.segments[n] = SegmentSettings.initial := by simp [Settings.initial]
  rw [h]
  exact ⟨by decide, by decide, by decide⟩

theorem queued_engines : EnginesOk queued := by
  have hn : ∀ n : SegmentNumber, queued.engines[n] = if n = 1 then { online with queue := [.reference 3] } else Engine.cold := by decide
  refine ⟨settings_ok, fun n => ?_, by decide⟩
  rw [hn]
  split <;> exact ⟨by decide, by decide, by decide, by decide, by decide, by decide, by decide, by decide, by decide, by decide⟩

theorem queued_windows : WindowTableOk queued :=
  one_window _ 7 _ rfl ⟨by decide, by decide, by decide, by decide, by decide⟩

/-- The two forms of a current cycle after a step: the one of before, and a new one. -/
theorem meets_steps_keep_engines :
    (after (.leaseExpiry 0) later).engines[(1 : SegmentNumber)].current = later.engines[(1 : SegmentNumber)].current
    ∧ queued.engines[(1 : SegmentNumber)].current = none
    ∧ (after (.takeHead 1) queued).engines[(1 : SegmentNumber)].current = some firstCycle
    ∧ queued.cyclesStarted ≤ firstCycle.number := by decide

theorem meets_steps_keep_the_tables : TablesOk queued ∧ ∃ t, step queued = .next t := by
  refine ⟨⟨queued_windows, queued_engines, ⟨by decide, fun w g h => ?_⟩, fun slot => ?_, meets_reset_segment, one_entry _ _⟩, _, rfl⟩
  · have hr : itemRoutes queued = [.window 7 1] := by decide
    rw [hr, List.mem_singleton] at h
    cases h
    decide
  · have he : ∀ slot : Slot, queued.entries[slot] = if slot = 3 then entry else Entry.cold := by decide
    rw [he]
    split <;> exact ⟨by decide, by decide, by decide, by decide⟩

theorem meets_steps_keep_the_notice_unit :
    NoticesOk (noticed .awaitAck (some 0) (some ⟨1, 1⟩) 1).notices (some 2) ∧ ∃ t, step (noticed .awaitAck (some 0) none 1) = .next t :=
  ⟨⟨by decide, by decide, by decide, by decide, by decide, by decide, by decide, by decide, by decide, by decide, by decide, by decide⟩,
    _, rfl⟩

theorem meets_steps_keep_the_reset_states : PortOk State.reset.warmReset ∧ State.reset.warmReset.port = .restarting
    ∧ State.reset.coldReset.power ≠ .on ∧ ColdHeld State.reset.coldReset := by
  refine ⟨⟨fun _ => ⟨by decide, by decide, by decide, rfl, rfl, rfl, .inr ⟨0, by decide⟩⟩, fun _ _ => rfl⟩, rfl, by decide,
    ⟨rfl, rfl, rfl, fun w => ?_, fun slot => ?_, fun n => ?_, rfl, rfl⟩⟩ <;> simp [State.coldReset]

end Sys2Proof.Tests
end

/-! SUPPORT. The Time Base (00_scope.md): the tick, and what each timer that runs out does to its block. -/

namespace Sys2Proof.Proofs.Scope

open Sys2Proof Sys2Proof.Machine Sys2Proof.Safety

/-! ### The commands of the Time Base and the meanings they run -/

theorem exec_leaseExpiry (s : State) (w : WindowNumber) : exec (.leaseExpiry w) s = execLeaseExpiry w s := rfl

theorem exec_discardExpiry (s : State) (slot : Slot) : exec (.discardExpiry slot) s = execDiscardExpiry slot s := rfl

theorem exec_cycleTimeout (s : State) (n : SegmentNumber) : exec (.cycleTimeout n) s = execCycleTimeout n s := rfl

theorem exec_targetError (s : State) (answered : CycleName) :
    exec (.targetError answered) s = .next (s.errCycle answered) := rfl

theorem exec_resetPulseExpiry (s : State) (n : SegmentNumber) :
    exec (.resetPulseExpiry n) s = execResetPulseExpiry n s := rfl

theorem exec_ackTimerExpiry (s : State) : exec .ackTimerExpiry s = execAckTimerExpiry s := rfl

theorem exec_warmNRelease (s : State) : exec .warmNRelease s = .next (State.leaveRestarting { s with warmN := false }) := rfl

/-! ### One tick, block by block -/

theorem step_of_empty_queue (s : State) (h : s.pending = []) : step s = .next s.tick := by
  simp only [step, h]

theorem tick_window (s : State) (w : WindowNumber) : s.tick.windows[w] = s.windows[w].tick := by
  simp [State.tick]

theorem tick_entry (s : State) (slot : Slot) : s.tick.entries[slot] = s.entries[slot].tick := by
  simp [State.tick]

theorem tick_engine (s : State) (n : SegmentNumber) : s.tick.engines[n] = s.engines[n].tick := by
  simp [State.tick]

theorem tick_pending_of_empty_queue (s : State) (h : s.pending = []) : s.tick.pending = s.expiries := by
  simp only [State.tick, h, List.nil_append]

/-- Settles O3: a tick is stated block by block, and the queue it leaves holds the expiries of that microsecond. -/
theorem idleStepOnlyCountsTime : Obligations.IdleStepOnlyCountsTime := by
  intro s hs
  have power : s.tick.power =
      (match s.power with
        | .off => .off
        | .counting x => .counting (x.tick 1)
        | .on => .on) := by
    show s.power.tick = _
    cases s.power <;> rfl
  have queue := tick_pending_of_empty_queue s hs
  exact ⟨s.tick, step_of_empty_queue s hs, rfl, rfl, rfl, rfl, rfl, rfl, rfl, power, tick_window s, tick_entry s, tick_engine s,
    rfl, queue ▸ expiries_nodup s, queue ▸ mem_expiries s⟩

/-! ### A timer against R1 -/

/-- The last unit begins once n - 1 units have passed: the earliest that R1 allows. -/
theorem last_unit_iff (unit n k : Nat) (hu : 1 ≤ unit) (hn : 1 ≤ n) :
    ((Timer.tick unit)^[k] (Timer.start unit n)).units ≤ 1 ↔ (n - 1) * unit ≤ k := by
  rcases Nat.lt_or_ge k (n * unit) with running | out
  · rw [tick_iterate unit n k hu running, ← Nat.le_div_iff_mul_le hu]
    dsimp only
    omega
  · have : (n - 1) * unit ≤ n * unit := Nat.mul_le_mul_right _ (Nat.sub_le _ _)
    rw [tick_iterate_out unit n k hu hn (by omega)]
    simp only [le_refl, true_iff]
    omega

/-- The expiry is due at the tick that completes n units: the latest that R1 allows. -/
theorem due_iff (unit n k : Nat) (hu : 1 ≤ unit) (hn : 1 ≤ n) :
    ((Timer.tick unit)^[k] (Timer.start unit n)).due = true ↔ n * unit ≤ k + 1 := by
  rcases Nat.lt_or_ge (k + 1) (n * unit) with running | out
  · rw [tick_iterate unit n k hu (by omega)]
    simp only [Timer.due, decide_eq_true_eq]
    refine ⟨fun ⟨lastUnit, lastMicro⟩ => ?_, fun h => absurd h (by omega)⟩
    calc n * unit = unit * (n - 1) + unit := by rw [Nat.mul_comm, ← Nat.mul_succ, Nat.succ_eq_add_one, Nat.sub_add_cancel hn]
      _ ≤ unit * (k / unit) + (k % unit + 1) := Nat.add_le_add (Nat.mul_le_mul_left _ (by omega)) (by omega)
      _ = k + 1 := by rw [← Nat.add_assoc, Nat.div_add_mod]
  · rw [tick_iterate_out unit n k hu hn out]
    exact iff_of_true rfl out

/-- Settles O4: the units left are those of the closed form of `tick_iterate`; the two bounds of R1 follow from it. -/
theorem timerRunsForNUnits : Obligations.TimerRunsForNUnits := by
  intro unit n k hu hn
  exact ⟨fun running => by rw [tick_iterate unit n k hu running], last_unit_iff unit n k hu hn, due_iff unit n k hu hn⟩

/-! ### Leases -/

theorem execLeaseExpiry_of_mayExpire (s : State) (w : WindowNumber) (h : MayExpire s.windows[w].lease) :
    execLeaseExpiry w s = .next ((s.setWindow w (s.windows[w].closed .leaseExpired)).settle w) :=
  if_pos ((mayExpire_iff _).2 h)

theorem setWindow_twice (s : State) (w : WindowNumber) (r r' : Window) :
    (s.setWindow w r).setWindow w r' = s.setWindow w r' := by
  simp [State.setWindow]

/-- A record written with items still in flight does not retire (R44). -/
theorem setWindow_settle_in_flight (s : State) (w : WindowNumber) (r : Window) (h : r.inFlight ≠ 0) :
    (s.setWindow w r).settle w = s.setWindow w r := by
  apply settle_stays
  rw [window_after_set, if_pos rfl]
  exact fun retires => h retires.2

/-- A record written CLOSING with no item in flight retires at once (R44, R45). -/
theorem setWindow_settle_retires (s : State) (w : WindowNumber) (r : Window) (hs : r.state = .closing) (hf : r.inFlight = 0) :
    (s.setWindow w r).settle w
      = (s.setWindow w { r with state := .free }).raise (.windowRetired w r.generation r.retireReason) 1 := by
  have written : (s.setWindow w r).windows[w] = r := by rw [window_after_set, if_pos rfl]
  rw [settle_retires _ _ (written.symm ▸ ⟨hs, hf⟩)]
  simp only [State.retire]
  rw [written, setWindow_twice]

/-- Settles O26: the expired window is CLOSING with LEASE-EXPIRED, and it retires at once where nothing is in flight. -/
theorem leaseExpiryClosesTheWindow : Obligations.LeaseExpiryClosesTheWindow := by
  intro s w
  rw [exec_leaseExpiry]
  refine ⟨fun early => leaseExpiry_early s w (mayExpire_eq_false _ early), fun last busy => ?_, fun last empty => ?_⟩
  · rw [execLeaseExpiry_of_mayExpire s w last, setWindow_settle_in_flight s w (s.windows[w].closed .leaseExpired) busy]
    rfl
  · rw [execLeaseExpiry_of_mayExpire s w last, setWindow_settle_retires s w (s.windows[w].closed .leaseExpired) rfl empty]
    rfl

/-! ### Discard timers -/

theorem execDiscardExpiry_of_mayExpire (s : State) (slot : Slot) (h : MayExpire s.entries[slot].discard) :
    execDiscardExpiry slot s
      = .next (((s.setEntry slot (emptied s.entries[slot])).raise
          (.completionDiscarded s.entries[slot].requester slot s.entries[slot].kind s.entries[slot].address) 1).lowerRoute
          s.entries[slot].route) :=
  if_pos ((mayExpire_iff _).2 h)

/-- Settles O31, by whether the discard timer may expire. -/
theorem discardExpiryFreesTheEntry : Obligations.DiscardExpiryFreesTheEntry := by
  intro s slot
  rw [exec_discardExpiry]
  exact ⟨fun early => discardExpiry_early s slot (mayExpire_eq_false _ early), execDiscardExpiry_of_mayExpire s slot⟩

/-! ### Failing cycles -/

theorem endItem_eq_handBack (s : State) (n : SegmentNumber) (i : Item) (result : ItemResult) (hi : s.engines[n].inFlight = some i) :
    s.endItem n result = (s.setEngine n (idled s.engines[n])).handBack n i result s.engines[n].kept := by
  simp only [State.endItem, hi, idled_eq]

/-- The hand-back of an item leaves its engine as the end of the item made it (R121). -/
theorem endItem_engine (s : State) (n : SegmentNumber) (i : Item) (result : ItemResult) (hi : s.engines[n].inFlight = some i) :
    (s.endItem n result).engines[n] = idled s.engines[n] := by
  rw [endItem_eq_handBack s n i result hi, handBack_engines, engine_after_set, if_pos rfl]

/-- An item ends, and its engine counts (R120, R121). -/
theorem endItem_countNoResponses (s : State) (n : SegmentNumber) (i : Item) (result : ItemResult) (count : Nat)
    (hi : s.engines[n].inFlight = some i) :
    (s.endItem n result).countNoResponses n count
      = (s.endItem n result).setEngine n { idled s.engines[n] with noResponses := count } := by
  unfold State.countNoResponses
  rw [endItem_engine s n i result hi]

/-- An item ends, its engine counts and is then faulted (R120, R121, R124). -/
theorem endItem_count_fault (s : State) (n : SegmentNumber) (i : Item) (result : ItemResult) (count : Nat) (cause : FaultCause)
    (hi : s.engines[n].inFlight = some i) :
    ((s.endItem n result).countNoResponses n count).faultSegment n cause
      = ((s.endItem n result).setEngine n
          { idled s.engines[n] with noResponses := count, state := .faulted, faultCause := cause }).raise
          (.segmentFaulted n cause) 1 := by
  unfold State.faultSegment
  rw [endItem_countNoResponses s n i result count hi, engine_after_set, if_pos rfl, setEngine_twice]

/-- A cycle whose timer may expire ends its item, counts, and faults its engine at the limit (R120, R121). -/
theorem timeOut_of_mayExpire (s : State) (n : SegmentNumber) (x : RunningCycle) (hx : s.engines[n].current = some x)
    (hu : x.timer.units ≤ 1) :
    s.timeOut n =
      if s.settings.segments[n].noResponseLimit ≤ s.engines[n].noResponses + 1 then
        ((s.endItem n .noResponse).countNoResponses n (s.engines[n].noResponses + 1)).faultSegment n .noResponseLimit
      else (s.endItem n .noResponse).countNoResponses n (s.engines[n].noResponses + 1) :=
  if_pos ((mayExpire_iff _).2 ⟨x.timer, by rw [hx]; rfl, hu⟩)

/-- An error for the current cycle ends its item, clears the count, and faults the engine where it halts on error (R120, R121, R123). -/
theorem errCycle_current (s : State) (n : SegmentNumber) (x : RunningCycle) (hx : s.engines[n].current = some x) :
    s.errCycle ⟨n, x.number⟩ =
      if s.settings.segments[n].haltOnError then
        ((s.endItem n .targetError).countNoResponses n 0).faultSegment n .targetError
      else (s.endItem n .targetError).countNoResponses n 0 := by
  simp only [State.errCycle, answeredCycle_some s ⟨n, x.number⟩ x hx rfl]

/-- Settles O37: the cycle timer and the error signal each end the item by `endItem`, and each may fault the engine. -/
theorem failingCyclesEndTheItem : Obligations.FailingCyclesEndTheItem := by
  refine ⟨fun s n => ?_, fun s n k => ?_⟩
  · rw [exec_cycleTimeout]
    refine ⟨fun early => cycleTimeout_early s n (mayExpire_eq_false _ early), fun x i t hx hu hi ht => ?_⟩
    rw [execCycleTimeout, timeOut_of_mayExpire s n x hx hu, ht, ← endItem_eq_handBack s n i _ hi]
    refine ⟨fun below => ?_, fun limit => ?_⟩
    · rw [if_neg (Nat.not_le.2 below), endItem_countNoResponses s n i _ _ hi]
    · rw [if_pos limit, endItem_count_fault s n i _ _ _ hi]
  · rw [exec_targetError]
    refine ⟨fun late => by rw [errCycle_late s ⟨n, k⟩ late], fun x i t hx hk hi ht => ?_⟩
    subst hk
    rw [errCycle_current s n x hx, ht, ← endItem_eq_handBack s n i _ hi]
    refine ⟨fun goesOn => ?_, fun halts => ?_⟩
    · rw [if_neg (by rw [goesOn]; decide), endItem_countNoResponses s n i _ _ hi]
    · rw [if_pos halts, endItem_count_fault s n i _ _ _ hi]

/-! ### Reset pulses and the end of RESTARTING -/

theorem endPulse_of_mayExpire (s : State) (n : SegmentNumber) (h : MayExpire s.engines[n].resetPulse) :
    s.endPulse n
      = (s.setEngine n
          { s.engines[n] with state := s.engines[n].returnState.engineState, resetPulse := none }).leaveRestarting :=
  if_pos ((mayExpire_iff _).2 h)

/-- Settles O40: a pulse that ends and a release of WARM_N both come to `leaveRestarting`, whose condition is R50's. -/
theorem theEndOfARestart : Obligations.TheEndOfARestart := by
  refine ⟨fun s n => ⟨fun early => ?_, fun last t ht => ?_⟩, fun s => ?_⟩
  · rw [exec_resetPulseExpiry, resetPulseExpiry_early s n (mayExpire_eq_false _ early)]
  · have pulse : (s.setEngine n
        { s.engines[n] with state := s.engines[n].returnState.engineState, resetPulse := none }) = t := by
      rw [ht]
      cases s.engines[n].returnState <;> rfl
    have port : t.port = s.port := by rw [ht]; rfl
    have warmN : t.warmN = s.warmN := by rw [ht]; rfl
    rw [exec_resetPulseExpiry, execResetPulseExpiry, endPulse_of_mayExpire s n last, pulse, leaveRestarting_eq, port, warmN]
  · rw [exec_warmNRelease, leaveRestarting_eq]
    simp only [true_and]

/-! ### The ack timer -/

theorem execAckTimerExpiry_of_mayExpire (s : State) (h : MayExpire s.notices.ackTimer) :
    execAckTimerExpiry s = .next (s.setNotices s.notices.expired) :=
  if_pos ((mayExpire_iff _).2 h)

/-- Settles O44: `mergeHead` is the merge of R141 that the statement names. -/
theorem ackTimerRunsOut : Obligations.AckTimerRunsOut := by
  intro s
  rw [exec_ackTimerExpiry]
  refine ⟨fun early => ackTimerExpiry_early s (mayExpire_eq_false _ early), fun last merged hm => ?_⟩
  rw [execAckTimerExpiry_of_mayExpire s last, ← mergeHead_of_mergesTo _ _ hm]
  rfl

end Sys2Proof.Proofs.Scope

/-! SUPPORT. Resets, reset values, and the asks that the Window Table answers or hands off as posted items. -/

namespace Sys2Proof.Proofs.WindowTable

open Sys2Proof Sys2Proof.Machine Sys2Proof.Safety

/-! ### Asks that decode answers -/

/-- An ask that decode answers leaves no record (R62). -/
theorem exec_arrival_of_answered (s : State) (a : Ask) (ans : Answer) (hr : Running s) (ha : AskOk a) (hn : IsNew s a)
    (hd : s.decode a = .answered ans) : exec (arrival a) s = .next (s.answer a.requester ans) := by
  rw [exec_arrival s a hr ha, access_of_answered s a hn ans hd]

theorem decode_of_hits (s : State) (a : Ask) (w : WindowNumber) (ht : WindowTableOk s) (h : Hits s a w) :
    s.decode a = s.decodeHit a w := by
  simp only [State.decode, hit_of_hits s a w ht h]

theorem decode_of_misses (s : State) (a : Ask) (h : Misses s a) : s.decode a = s.decodeMiss a := by
  simp only [State.decode, hit_of_misses s a h]

theorem not_lt_last (a : Ask) (n : Nat) (h : lastByte a ≤ n) : ¬ n < a.last := Nat.not_lt.2 h

/-- The checks of R10 to R14 in the order in which `decodeHit` makes them. -/
theorem decodeHit_of_hitRefused (s : State) (a : Ask) (w : WindowNumber) (code : FaultCode) (h : HitRefused s a w code) :
    s.decodeHit a w = .answered (.fault code) := by
  unfold State.decodeHit
  dsimp only
  rcases h with ⟨long, rfl⟩ | ⟨fits, closing, rfl⟩ | ⟨fits, opened, stranger, rfl⟩ | ⟨fits, opened, admitted, thawed, refused⟩
  · exact if_pos long
  · rw [if_neg (not_lt_last a _ fits), if_pos closing]
  · rw [if_neg (not_lt_last a _ fits), if_neg (by rw [opened]; decide), if_pos (by rwa [admits_iff, not_not] at stranger)]
  · rw [if_neg (not_lt_last a _ fits), if_neg (by rw [opened]; decide), if_neg ((admits_iff _ _).1 admitted),
      if_neg (by rw [thawed]; decide), refuses_of_segmentRefuses _ _ refused]

/-- Settles O14: the hit window is found, and its first check that fails answers. -/
theorem hitWindowChecksInOrder : Obligations.HitWindowChecksInOrder := by
  intro s a w code hr ha ht hn hh hc
  exact exec_arrival_of_answered s a _ hr ha hn ((decode_of_hits s a w ht hh).trans (decodeHit_of_hitRefused s a w code hc))

theorem decodeHit_of_frozen (s : State) (a : Ask) (w : WindowNumber) (fits : lastByte a ≤ s.windows[w].limit)
    (opened : s.windows[w].state = .opened) (admitted : Admits s.windows[w] a.requester) (frozen : s.windows[w].frozen = true) :
    s.decodeHit a w = .answered a.frozenAnswer := by
  unfold State.decodeHit
  dsimp only
  rw [if_neg (not_lt_last a _ fits), if_neg (by rw [opened]; decide), if_neg ((admits_iff _ _).1 admitted), if_pos frozen]

/-- Settles O15: a frozen window answers before the segment state check, by the kind of the ask (R13). -/
theorem frozenWindowAnswersItself : Obligations.FrozenWindowAnswersItself := by
  intro s a w hr ha ht hn hh fits opened admitted frozen
  have answers := exec_arrival_of_answered s a _ hr ha hn
    ((decode_of_hits s a w ht hh).trans (decodeHit_of_frozen s a w fits opened admitted frozen))
  refine ⟨fun read => ?_, fun write => ?_⟩
  · rw [answers, Ask.frozenAnswer, read]; rfl
  · rw [answers, Ask.frozenAnswer, write]

/-- The checks of R17 in the order in which `decodeMiss` makes them. -/
theorem decodeMiss_of_missRefused (s : State) (a : Ask) (code : FaultCode) (h : MissRefused s a code) :
    s.decodeMiss a = .answered (.fault code) := by
  unfold State.decodeMiss
  rw [defaultRoute_eq, segmentMaximum_eq]
  rcases h with ⟨none, rfl⟩ | ⟨n, route, ⟨above, rfl⟩ | ⟨below, runs, rfl⟩ | ⟨below, clear, refused⟩⟩
  · rw [none]
  · rw [route]; exact if_pos above
  · rw [route]; dsimp only; rw [if_neg (not_lt_last a _ below), if_pos ((touchesWindow_iff s a).2 runs)]
  · rw [route]; dsimp only
    rw [if_neg (not_lt_last a _ below), if_neg (by rwa [touchesWindow_iff]), refuses_of_segmentRefuses _ _ refused]

/-- Settles O16: no window is hit, and the first check of the default route that fails answers. -/
theorem defaultRouteChecksInOrder : Obligations.DefaultRouteChecksInOrder := by
  intro s a code hr ha hn hm hc
  exact exec_arrival_of_answered s a _ hr ha hn ((decode_of_misses s a hm).trans (decodeMiss_of_missRefused s a code hc))

/-! ### Posted writes -/

/-- A new ask that passes decode is handed off with its target. -/
theorem exec_arrival_of_passes (s : State) (a : Ask) (x : Target) (hr : Running s) (ha : AskOk a) (ht : WindowTableOk s)
    (hn : IsNew s a) (h : Passes s a x) :
    exec (arrival a) s = .next ((s.accept (handOffOf a x)).1.answer a.requester (s.accept (handOffOf a x)).2) := by
  rw [exec_arrival s a hr ha, access_of_passes s a x ht hn h]

theorem acceptPosted_full (s : State) (x : HandOff) (full : 8 ≤ s.engines[x.segment].postedCount) :
    s.acceptPosted x = (s, .again .busy) :=
  if_neg (Nat.not_lt.2 full)

theorem acceptPosted_room (s : State) (x : HandOff) (room : s.engines[x.segment].postedCount < 8) :
    s.acceptPosted x = ((s.enqueue x.segment (.posted x.item)).raiseRoute x.route, .taken) :=
  if_pos room

/-- Settles O17, by whether the segment's list has room for a posted item. -/
theorem postedWritesAreAccepted : Obligations.PostedWritesAreAccepted := by
  intro s a x hr ha ht hn hp posted
  have accept : s.accept (handOffOf a x) = s.acceptPosted (handOffOf a x) := if_pos posted
  rw [exec_arrival_of_passes s a x hr ha ht hn hp, accept]
  refine ⟨fun full => ?_, fun room => ?_⟩
  · rw [acceptPosted_full s (handOffOf a x) full]
  · rw [acceptPosted_room s (handOffOf a x) room]; rfl

/-! ### Resets -/

theorem warmReset_window (s : State) (w : WindowNumber) : s.warmReset.windows[w] = s.windows[w].warm := by
  simp [State.warmReset]

theorem warmReset_entry (s : State) (slot : Slot) : s.warmReset.entries[slot] = s.entries[slot].freed := by
  simp [State.warmReset]

theorem warmReset_engine (s : State) (n : SegmentNumber) :
    s.warmReset.engines[n] = Engine.resettingTo .offline SegmentSettings.initial.resetPulse := by
  simp [State.warmReset]

theorem exec_warmReset (s : State) (r : Requester) (h : Manages s r) :
    exec (manageAsk .warmReset r []) s = .next (s.warmReset.answer r (.managed [])) :=
  congrArg _ (manage_member_ok s s.warmReset r [] [] (warmResetCommand []) h (by decide) rfl)

theorem execColdResetEnd_of_mayExpire (s : State) (x : Timer) (hp : s.power = .counting x) (hx : x.units ≤ 1) :
    execColdResetEnd s =
      if s.warmN then .next ({ s with power := .on, port := .running } : State).warmReset
      else .next { s with power := .on, port := .running } := by
  have due : x.mayExpire = true := decide_eq_true hx
  simp only [execColdResetEnd, hp, due, if_true]

/-- Settles O53: the warm reset block by block, then the three commands that come to it. -/
theorem warmResetReachesEveryBlock : Obligations.WarmResetReachesEveryBlock := by
  intro s
  refine ⟨⟨rfl, rfl, rfl, rfl, rfl, rfl, rfl, rfl, warmReset_window s, warmReset_entry s, warmReset_engine s, rfl, rfl⟩,
    fun on => if_pos on, fun off => if_neg off, exec_warmReset s, fun x counting last warm => ?_⟩
  exact (execColdResetEnd_of_mayExpire s x counting last).trans (if_pos warm)

/-- Settles O54: the fall, the rise and the end of the cold reset, by the state of PWRGOOD. -/
theorem coldResetClearsThePart : Obligations.ColdResetClearsThePart := by
  intro s
  have rise : exec .pwrgoodRise s = execPwrgoodRise s := rfl
  have finish : exec .coldResetEnd s = execColdResetEnd s := rfl
  rw [rise, finish]
  refine ⟨rfl, fun off => ?_, fun high => ?_, fun x counting last released => ?_, fun x counting early => ?_, fun idle => ?_⟩
  · simp only [execPwrgoodRise, off]; rfl
  · unfold execPwrgoodRise
    cases hp : s.power with
    | off => exact absurd hp high
    | counting x => rfl
    | on => rfl
  · rw [execColdResetEnd_of_mayExpire s x counting last, released]; rfl
  · exact coldResetEnd_early s x counting (decide_eq_false (Nat.not_le.2 early))
  · rcases idle with off | on
    · simp only [execColdResetEnd, off]
    · simp only [execColdResetEnd, on]

/-! ### The state right after a cold reset -/

theorem reset_window (w : WindowNumber) : State.reset.windows[w] = Window.cold := by simp [State.reset]

theorem reset_entry (slot : Slot) : State.reset.entries[slot] = Entry.cold := by simp [State.reset]

theorem reset_engine (n : SegmentNumber) : State.reset.engines[n] = Engine.cold := by simp [State.reset]

theorem reset_segmentSettings (n : SegmentNumber) : State.reset.settings.segments[n] = SegmentSettings.initial := by
  simp [State.reset, Settings.initial]

/-- Settles O5: the cold value of each record of a table, and of each other field. -/
theorem resetStateHoldsTheColdValues : Obligations.ResetStateHoldsTheColdValues :=
  ⟨rfl, rfl, rfl, rfl, rfl, rfl, rfl, rfl, reset_window, reset_entry, reset_engine, rfl, rfl, rfl, rfl, rfl, rfl, rfl, rfl, rfl,
    reset_segmentSettings⟩

end Sys2Proof.Proofs.WindowTable

/-! SUPPORT. What acceptance and the end of items leave of the windows (R20, R21, R44, R88, R130), record by record. -/

namespace Sys2Proof.Proofs.Counts

open Sys2Proof Sys2Proof.Machine Sys2Proof.Safety

/-! ### One route -/

theorem raiseRoute_present (s : State) (w : WindowNumber) :
    s.raiseRoute (s.routeOf w) = s.setWindow w { s.windows[w] with inFlight := s.windows[w].inFlight + 1 } :=
  if_pos (decide_eq_true rfl)

theorem lowerRoute_present (s : State) (w : WindowNumber) : s.lowerRoute (s.routeOf w) = s.lower w 1 :=
  if_pos (decide_eq_true rfl)

/-- A route of another generation is not that of the window's present use (R4). -/
theorem names_eq_false (s : State) (w : WindowNumber) (g : Byte) (h : g ≠ s.windows[w].generation) :
    (Route.window w g).names s w = false :=
  decide_eq_false fun e => h (Route.window.inj e).2

theorem raiseRoute_stale (s : State) (w : WindowNumber) (g : Byte) (h : g ≠ s.windows[w].generation) :
    s.raiseRoute (.window w g) = s := by
  simp only [State.raiseRoute, names_eq_false s w g h]; rfl

theorem lowerRoute_stale (s : State) (w : WindowNumber) (g : Byte) (h : g ≠ s.windows[w].generation) :
    s.lowerRoute (.window w g) = s := by
  simp only [State.lowerRoute, names_eq_false s w g h]; rfl

/-! ### Several routes -/

theorem eq_update_of_sameButWindows {s t : State} (h : SameButWindows s t) :
    t = { s with windows := t.windows, notices := t.notices } := by
  obtain ⟨power, warmN, port, answers, handed, link, entries, engines, cyclesStarted, settings, pending⟩ := h
  cases t
  simp_all

/-- Settles O18: one route by whether it is of the present generation, several by the fold over the windows in ascending order. -/
theorem countsFollowTheItems : Obligations.CountsFollowTheItems := by
  refine ⟨fun s w => ⟨rfl, rfl, raiseRoute_present s w, (lowerRoute_present s w).trans (lower_eq s w 1), fun g stale =>
    ⟨raiseRoute_stale s w g stale, lowerRoute_stale s w g stale⟩⟩, fun s routes => ?_⟩
  intro k
  obtain ⟨windows, notices⟩ := lowerRoutes_fold s routes allWindows (List.nodup_finRange 48) s fun _ _ => rfl
  exact ⟨fun w => (windows w).trans (if_pos (List.mem_finRange w)), notices, _, _,
    eq_update_of_sameButWindows (lowerRoutes_frame s routes)⟩

/-- A window after `k` of the items that name it have ended at one claim; with none of them among its own it is as it was. -/
def fallen (w : Window) (k : Nat) : Window := if k = 0 then w else lowered w k

theorem lowerRoutes_window (s : State) (routes : List Route) (w : WindowNumber) :
    (s.lowerRoutes routes).windows[w] = fallen s.windows[w] (routes.count (s.routeOf w)) :=
  (countsFollowTheItems.2 s routes).1 w

theorem lower_window (s : State) (w v : WindowNumber) (k : Nat) :
    (s.lower w k).windows[v] = if v = w then lowered s.windows[w] k else s.windows[v] := by
  rw [lower_eq, State.setNotices_windows, window_after_set]

/-- The end of one item, in the form of the end of several. -/
theorem lowerRoute_window (s : State) (r : Route) (w : WindowNumber) :
    (s.lowerRoute r).windows[w] = fallen s.windows[w] ([r].count (s.routeOf w)) := by
  cases r with
  | defaultRoute =>
    have other : [Route.defaultRoute].count (s.routeOf w) = 0 := List.count_eq_zero.2 (by simp [State.routeOf])
    rw [other]; rfl
  | window v g =>
    by_cases present : g = s.windows[v].generation
    · subst present
      have route : Route.window v s.windows[v].generation = s.routeOf v := rfl
      rw [route, lowerRoute_present, lower_window]
      by_cases same : w = v
      · subst same
        rw [if_pos rfl, List.count_singleton_self]; rfl
      · have other : [s.routeOf v].count (s.routeOf w) = 0 :=
          List.count_eq_zero.2 fun h => same (Route.window.inj (List.mem_singleton.1 h)).1
        rw [if_neg same, other]; rfl
    · have other : [Route.window v g].count (s.routeOf w) = 0 := by
        refine List.count_eq_zero.2 fun h => ?_
        obtain ⟨rfl, rfl⟩ := Route.window.inj (List.mem_singleton.1 h)
        exact present rfl
      rw [lowerRoute_stale s v g present, other]; rfl

/-- The rise of a count on acceptance (R20). -/
theorem raiseRoute_window (s : State) (w v : WindowNumber) :
    (s.raiseRoute (s.routeOf w)).windows[v]
      = if v = w then { s.windows[w] with inFlight := s.windows[w].inFlight + 1 } else s.windows[v] := by
  rw [raiseRoute_present, window_after_set]

/-- A window that settles is a window whose count falls by no item. -/
theorem settle_eq_lower (s : State) (w : WindowNumber) : s.settle w = s.lower w 0 :=
  (congrArg (State.settle · w) (setWindow_same s w)).symm

end Sys2Proof.Proofs.Counts

/-! SUPPORT. What a command can do to the tables, said once: every command but the fall of PWRGOOD has one of a few effects on the windows,
the entries, the engines and the settings, and touches beside them only the port, the notices and the queue. -/

namespace Sys2Proof.Proofs.Effects

open Sys2Proof Sys2Proof.Machine Sys2Proof.Safety Sys2Proof.Proofs.Counts

/-! ### States with the same tables -/

/-- Two states agree in all that the invariants of the tables speak of. -/
structure SameTables (s t : State) : Prop where
  windows : t.windows = s.windows
  entries : t.entries = s.entries
  engines : t.engines = s.engines
  cyclesStarted : t.cyclesStarted = s.cyclesStarted
  settings : t.settings = s.settings

theorem SameTables.refl (s : State) : SameTables s s := ⟨rfl, rfl, rfl, rfl, rfl⟩

theorem SameTables.trans {s t u : State} (h : SameTables s t) (k : SameTables t u) : SameTables s u :=
  ⟨k.windows.trans h.windows, k.entries.trans h.entries, k.engines.trans h.engines, k.cyclesStarted.trans h.cyclesStarted,
    k.settings.trans h.settings⟩

theorem sameTables_answer (s : State) (r : Requester) (a : Answer) : SameTables s (s.answer r a) := ⟨rfl, rfl, rfl, rfl, rfl⟩

theorem sameTables_setNotices (s : State) (u : NoticeUnit) : SameTables s (s.setNotices u) := ⟨rfl, rfl, rfl, rfl, rfl⟩

theorem sameTables_raise (s : State) (news : News) (n : Nat) : SameTables s (s.raise news n) := ⟨rfl, rfl, rfl, rfl, rfl⟩

theorem sameTables_leaveRestarting (s : State) : SameTables s s.leaveRestarting := by
  unfold State.leaveRestarting
  split
  · exact ⟨rfl, rfl, rfl, rfl, rfl⟩
  · exact .refl s

theorem sameTables_send (s : State) (which : Outgoing) : SameTables s (s.send which) := by
  cases which
  case answer => unfold State.send; dsimp only; split <;> exact ⟨rfl, rfl, rfl, rfl, rfl⟩
  case notice => unfold State.send; dsimp only; split <;> exact ⟨rfl, rfl, rfl, rfl, rfl⟩

theorem sameTables_sendHead (s : State) : SameTables s s.sendHead := by
  unfold State.sendHead
  split
  · exact ⟨rfl, rfl, rfl, rfl, rfl⟩
  · exact .refl s

theorem lowerRoute_windows_congr {s t : State} (r : Route) (h : t.windows = s.windows) :
    (t.lowerRoute r).windows = (s.lowerRoute r).windows :=
  windows_ext _ _ fun w => by rw [lowerRoute_window, lowerRoute_window]; simp only [State.routeOf, h]

/-- The end of an item leaves the same tables whatever notices wait. -/
theorem SameTables.lowerRoute {s t : State} (h : SameTables s t) (r : Route) :
    SameTables (s.lowerRoute r) (t.lowerRoute r) := by
  have fs := lowerRoute_frame s r
  have ft := lowerRoute_frame t r
  refine ⟨lowerRoute_windows_congr r h.windows, ?_, ?_, ?_, ?_⟩
  · rw [fs.entries, ft.entries, h.entries]
  · rw [fs.engines, ft.engines, h.engines]
  · rw [fs.cyclesStarted, ft.cyclesStarted, h.cyclesStarted]
  · rw [fs.settings, ft.settings, h.settings]

/-! ### The effects -/

/-- The changes of an engine that move no item and no cycle: BRING-ONLINE, TAKE-OFFLINE, RESUME and the end of a reset pulse
(R126–R128, R132). -/
inductive EngineTurn : Engine → Engine → Prop
  | online (e : Engine) (offline : e.state = .offline) : EngineTurn e { e with state := .online }
  | offline (e : Engine) (quiet : e.inFlight = none) (empty : e.queue = []) (settled : e.state ≠ .resetting) :
      EngineTurn e (e.cleared .offline)
  | resumed (e : Engine) (faulted : e.state = .faulted) : EngineTurn e (e.cleared .online)
  | pulseEnded (e : Engine) (runs : e.resetPulse.isSome = true) :
      EngineTurn e { e with state := e.returnState.engineState, resetPulse := none }

/-- What a command can do to the tables of a state. -/
inductive Effect (s : State) : State → Prop
  | nothing : Effect s s
  | endsEntry (slot : Slot) (done : s.entries[slot].state = .complete ∨ s.entries[slot].discard.isSome = true) :
      Effect s (s.endEntry slot)
  | accepts (a : Ask) (x : HandOff) (new : s.matching a = none) (passes : s.decode a = .handedOff x) : Effect s (s.accept x).1
  | opens (w : WindowNumber) (o : OpenOperands) (free : s.windows[w].visible = false)
      (mapping : (o.record s.windows[w]).mappingOk = true) (top : o.limit ≤ 0xFFFFFFFF)
      (clear : s.blocked w (o.record s.windows[w]) = false) : Effect s (s.setWindow w (o.record s.windows[w]))
  | amends (w : WindowNumber) (o : AmendOperands) (allowed : s.windows[w].changeRefused = none)
      (mapping : (o.merged s.windows[w]).mappingOk = true) (top : o.limit.getD 0 ≤ 0xFFFFFFFF)
      (clear : s.blocked w (o.merged s.windows[w]) = false) : Effect s (s.setWindow w (o.merged s.windows[w]))
  | renews (w : WindowNumber) (lease : Option Timer) (allowed : s.windows[w].changeRefused = none) :
      Effect s (s.setWindow w { s.windows[w] with lease := lease })
  | freezes (w : WindowNumber) (allowed : s.windows[w].changeRefused = none) :
      Effect s (s.setWindow w { s.windows[w] with frozen := true, lease := none })
  | closes (w : WindowNumber) (reason : RetireReason)
      (allowed : s.windows[w].state = .opened ∧ s.windows[w].frozen = false ∨ s.windows[w].lease.isSome = true) :
      Effect s ((s.setWindow w (s.windows[w].closed reason)).settle w)
  | abandons (w : WindowNumber) (used : s.windows[w].state ≠ .free) (thawed : s.windows[w].frozen = false) : Effect s (s.abandon w)
  | cancels (r : Requester) : Effect s (s.cancel r)
  | turns (n : SegmentNumber) (e : Engine) (turn : EngineTurn s.engines[n] e) : Effect s (s.setEngine n e)
  | resets (n : SegmentNumber) : Effect s (s.resetSegment n)
  | takesHead (n : SegmentNumber) : Effect s (s.takeHead n)
  | acknowledges (answered : CycleName) (data : BitVec 16) : Effect s (s.acknowledge answered data)
  | timesOut (n : SegmentNumber) : Effect s (s.timeOut n)
  | errs (answered : CycleName) : Effect s (s.errCycle answered)
  | warms : Effect s s.warmReset
  | writes (name : SettingName) (value : Nat) (v : Settings) (field : value ≤ 0xFFFFFFFF)
      (written : s.settings.write name value = some v) : Effect s { s with settings := v }

/-- The state comes from another by one of the effects, the port, the notices and the queue left aside. -/
def Does (s t : State) : Prop := ∃ u, Effect s u ∧ SameTables u t

theorem Effect.does {s t : State} (h : Effect s t) : Does s t := ⟨t, h, .refl t⟩

theorem does_of_sameTables {s t : State} (h : SameTables s t) : Does s t := ⟨s, .nothing, h⟩

theorem Does.trans_sameTables {s t u : State} (h : Does s t) (k : SameTables t u) : Does s u :=
  let ⟨v, effect, same⟩ := h
  ⟨v, effect, same.trans k⟩

/-! ### Asks -/

theorem atPort_does (h : Header) (n : Nat) (f : Requester → State → State × Answer) (s : State)
    (hf : ∀ r, Does s (f r s).1) : Does s (atPort h n f s) := by
  rcases atPort_cases h n f s with same | ⟨r, a, -, answered⟩ | ⟨r, -, -, -, handled⟩
  · rw [same]; exact Effect.nothing.does
  · rw [answered]; exact does_of_sameTables (sameTables_answer s r a)
  · rw [handled]; exact (hf r).trans_sameTables (sameTables_answer _ _ _)

theorem manage_does (h : Header) (ops : List Byte) (c : Command) (s : State)
    (hc : ∀ t block, c s = .ok (t, block) → Does s t) : Does s (manage h ops c s) := by
  rcases manage_cases h ops c s with same | ⟨r, a, -, answered, -⟩ | ⟨r, t, block, -, -, -, -, ran, done⟩
  · rw [same]; exact Effect.nothing.does
  · rw [answered]; exact does_of_sameTables (sameTables_answer s r a)
  · rw [done]; exact (hc t block ran).trans_sameTables (sameTables_answer _ _ _)

theorem access_effect (s : State) (a : Ask) : Effect s (s.access a).1 := by
  unfold State.access State.newAsk State.collect
  cases hm : s.matching a with
  | some slot =>
    dsimp only
    split
    · rename_i complete; exact .endsEntry slot (.inl complete)
    · exact .nothing
  | none =>
    dsimp only
    cases hd : s.decode a with
    | answered ans => exact .nothing
    | handedOff x => exact .accepts a x hm hd

theorem accessAtPort_does (kind : AccessKind) (h : Header) (body : List Byte) (s : State) : Does s (accessAtPort kind h body s) := by
  refine atPort_does h _ _ s fun r => ?_
  split
  · exact (access_effect s _).does
  · exact Effect.nothing.does

theorem acknowledgeNotice_sameTables (s : State) (r : Requester) (sequence : Byte) :
    SameTables s (s.acknowledgeNotice r sequence).1 := by
  unfold State.acknowledgeNotice
  split
  · split
    · exact sameTables_setNotices s _
    · exact .refl s
  · exact .refl s

/-! ### Window commands -/

theorem visible_eq_false_iff (w : Window) : w.visible = false ↔ w.state = .free := by
  simp [Window.visible]

theorem changeRefused_eq_none_iff (w : Window) : w.changeRefused = none ↔ w.state = .opened ∧ w.frozen = false := by
  unfold Window.changeRefused
  by_cases opened : w.state = .opened
  · cases frozen : w.frozen <;> simp [opened]
  · simp [opened]

/-- The record that OPEN chooses is FREE (R25). -/
theorem chooseRecord_free (s : State) (window : Option WindowNumber) (w : WindowNumber) (h : s.chooseRecord window = .ok w) :
    s.windows[w].visible = false := by
  unfold State.chooseRecord at h
  cases window with
  | some v =>
    dsimp only at h
    split at h
    · cases h
    · rename_i free
      cases h
      exact Bool.eq_false_iff.2 free
  | none =>
    dsimp only at h
    split at h
    · rename_i v found
      cases h
      have hidden := List.find?_some found
      rwa [Bool.not_eq_true'] at hidden
    · cases h

theorem openCommand_effect (block : List Byte) (s t : State) (result : List Byte) (h : openCommand block s = .ok (t, result)) :
    Effect s t := by
  unfold openCommand at h
  cases hp : parseOpen block with
  | error code => simp [hp] at h
  | ok o =>
    have top : o.limit ≤ 0xFFFFFFFF := (parseOpen_ok block o hp).1.2.2.2.1
    simp only [hp] at h
    split at h
    · rename_i mapping
      cases hc : s.chooseRecord o.window with
      | error code => simp [hc] at h
      | ok w =>
        simp only [hc] at h
        split at h
        · cases h
        · rename_i clear
          cases h
          exact .opens w o (chooseRecord_free s o.window w hc) mapping top (Bool.eq_false_iff.2 clear)
    · cases h

theorem amendCommand_effect (block : List Byte) (s t : State) (result : List Byte) (h : amendCommand block s = .ok (t, result)) :
    Effect s t := by
  unfold amendCommand at h
  cases hp : parseAmend block with
  | error code => simp [hp] at h
  | ok o =>
    have top : o.limit.getD 0 ≤ 0xFFFFFFFF := (parseAmend_ok block o hp).1.2.2.1
    simp only [hp] at h
    split at h
    · cases h
    · rename_i allowed
      split at h
      · rename_i mapping
        split at h
        · cases h
        · rename_i clear
          cases h
          exact .amends o.window o allowed mapping top (Bool.eq_false_iff.2 clear)
      · cases h

theorem renewCommand_effect (block : List Byte) (s t : State) (result : List Byte) (h : renewCommand block s = .ok (t, result)) :
    Effect s t := by
  unfold renewCommand at h
  cases hp : parseRenew block with
  | error code => simp [hp] at h
  | ok p =>
    simp only [hp] at h
    split at h
    · cases h
    · rename_i allowed
      cases h
      exact .renews p.1 _ allowed

theorem freezeCommand_effect (block : List Byte) (s t : State) (result : List Byte) (h : freezeCommand block s = .ok (t, result)) :
    Effect s t := by
  unfold freezeCommand at h
  cases hp : parseWindow block with
  | error code => simp [hp] at h
  | ok w =>
    simp only [hp] at h
    split at h
    · cases h
    · rename_i allowed
      cases h
      exact .freezes w allowed

theorem closeCommand_effect (block : List Byte) (s t : State) (result : List Byte) (h : closeCommand block s = .ok (t, result)) :
    Effect s t := by
  unfold closeCommand at h
  cases hp : parseClose block with
  | error code => simp [hp] at h
  | ok p =>
    simp only [hp] at h
    split at h
    · cases h
    · rename_i used
      split at h
      · cases h
      · rename_i thawed
        cases h
        have thawed := Bool.eq_false_iff.2 thawed
        split
        · exact .abandons p.1 used thawed
        · split
          · rename_i opened; exact .closes p.1 .closed (.inl ⟨opened, thawed⟩)
          · exact .nothing

/-! ### The other commands of the Management Unit -/

theorem bringOnlineCommand_effect (block : List Byte) (s t : State) (result : List Byte)
    (h : bringOnlineCommand block s = .ok (t, result)) : Effect s t := by
  unfold bringOnlineCommand at h
  split at h
  · cases h
  · split at h
    · rename_i n _ offline
      cases h
      exact .turns n _ (.online _ offline)
    · cases h

theorem takeOfflineCommand_effect (block : List Byte) (s t : State) (result : List Byte)
    (h : takeOfflineCommand block s = .ok (t, result)) : Effect s t := by
  unfold takeOfflineCommand at h
  split at h
  · cases h
  · dsimp only at h
    split at h
    · cases h
    · split at h
      · cases h
      · rename_i n _ running idle
        cases h
        rw [not_or, not_not] at idle
        exact .turns n _ (.offline _ (Option.not_isSome_iff_eq_none.1 idle.1) idle.2 fun resetting => running (.inr resetting))

theorem resumeCommand_effect (block : List Byte) (s t : State) (result : List Byte)
    (h : resumeCommand block s = .ok (t, result)) : Effect s t := by
  unfold resumeCommand at h
  split at h
  · cases h
  · split at h
    · rename_i n _ faulted
      cases h
      exact .turns n _ (.resumed _ faulted)
    · cases h

theorem resetSegmentCommand_effect (block : List Byte) (s t : State) (result : List Byte)
    (h : resetSegmentCommand block s = .ok (t, result)) : Effect s t := by
  unfold resetSegmentCommand at h
  split at h
  · cases h
  · split at h
    · cases h
    · cases h; exact .resets _

theorem cancelRequesterCommand_effect (block : List Byte) (s t : State) (result : List Byte)
    (h : cancelRequesterCommand block s = .ok (t, result)) : Effect s t := by
  unfold cancelRequesterCommand at h
  split at h
  · cases h
  · cases h; exact .cancels _

theorem resumeNoticesCommand_sameTables (block : List Byte) (s t : State) (result : List Byte)
    (h : resumeNoticesCommand block s = .ok (t, result)) : SameTables s t := by
  unfold resumeNoticesCommand at h
  split at h
  · split at h
    · cases h; exact sameTables_setNotices s _
    · cases h
  · cases h

theorem afterWrite_sameTables (s : State) (name : SettingName) : SameTables s (s.afterWrite name) := by
  cases name
  case noticeTarget => exact sameTables_setNotices s _
  all_goals exact .refl s

theorem writeSettingCommand_does (block : List Byte) (s t : State) (result : List Byte)
    (h : writeSettingCommand block s = .ok (t, result)) : Does s t := by
  unfold writeSettingCommand at h
  split at h
  · split at h
    · cases h
    · rename_i name _
      split at h
      · cases h
      · rename_i v written
        split at h
        · cases h
        · cases h
          have field : fieldAt block 2 4 ≤ 0xFFFFFFFF := Nat.le_of_lt_succ (fieldAt_lt block 2 4)
          exact (Effect.writes name _ v field written).does.trans_sameTables (afterWrite_sameTables _ name)
  · cases h

theorem warmResetCommand_effect (block : List Byte) (s t : State) (result : List Byte)
    (h : warmResetCommand block s = .ok (t, result)) : Effect s t := by
  unfold warmResetCommand at h
  split at h
  · cases h; exact .warms
  · cases h

/-- A command whose answer comes with the state as it was. -/
def OnlyReads (c : Command) : Prop := ∀ s t block, c s = .ok (t, block) → t = s

theorem queryCommand_onlyReads (block : List Byte) : OnlyReads (queryCommand block) := by
  intro s t result h
  unfold queryCommand at h
  split at h <;> cases h
  rfl

theorem lookupCommand_onlyReads (block : List Byte) : OnlyReads (lookupCommand block) := by
  intro s t result h
  unfold lookupCommand at h
  split at h <;> cases h
  rfl

theorem segmentStatusCommand_onlyReads (block : List Byte) : OnlyReads (segmentStatusCommand block) := by
  intro s t result h
  unfold segmentStatusCommand at h
  split at h <;> cases h
  rfl

theorem pendingStatusCommand_onlyReads (block : List Byte) : OnlyReads (pendingStatusCommand block) := by
  intro s t result h
  unfold pendingStatusCommand at h
  split at h <;> cases h <;> rfl

theorem noticeStatusCommand_onlyReads (block : List Byte) : OnlyReads (noticeStatusCommand block) := by
  intro s t result h
  unfold noticeStatusCommand at h
  split at h <;> cases h
  rfl

theorem readSettingCommand_onlyReads (block : List Byte) : OnlyReads (readSettingCommand block) := by
  intro s t result h
  unfold readSettingCommand at h
  split at h
  · split at h <;> cases h
    rfl
  · cases h

theorem identifyCommand_onlyReads (block : List Byte) : OnlyReads (identifyCommand block) := by
  intro s t result h
  unfold identifyCommand at h
  split at h <;> cases h
  rfl

theorem OnlyReads.does {c : Command} (hc : OnlyReads c) (h : Header) (ops : List Byte) (s : State) : Does s (manage h ops c s) :=
  manage_does h ops c s fun t block ran => hc s t block ran ▸ Effect.nothing.does

/-! ### Events -/

theorem execLeaseExpiry_does (s t : State) (w : WindowNumber) (h : execLeaseExpiry w s = .next t) : Does s t := by
  unfold execLeaseExpiry at h
  split at h
  · rename_i expires
    cases h
    obtain ⟨x, lease, -⟩ := (mayExpire_iff _).1 expires
    exact (Effect.closes w .leaseExpired (.inr (by rw [lease]; rfl))).does
  · cases h; exact Effect.nothing.does

theorem execDiscardExpiry_does (s t : State) (slot : Slot) (h : execDiscardExpiry slot s = .next t) : Does s t := by
  unfold execDiscardExpiry at h
  dsimp only at h
  split at h
  · rename_i expires
    cases h
    obtain ⟨x, discard, -⟩ := (mayExpire_iff _).1 expires
    exact ⟨s.endEntry slot, .endsEntry slot (.inr (by rw [discard]; rfl)), (sameTables_raise _ _ _).lowerRoute _⟩
  · cases h; exact Effect.nothing.does

theorem endPulse_does (s : State) (n : SegmentNumber) : Does s (s.endPulse n) := by
  unfold State.endPulse
  split
  · rename_i expires
    obtain ⟨x, pulse, -⟩ := (mayExpire_iff _).1 expires
    exact (Effect.turns n _ (.pulseEnded _ (by rw [pulse]; rfl))).does.trans_sameTables (sameTables_leaveRestarting _)
  · exact Effect.nothing.does

theorem execWarmNAssert_does (s t : State) (h : execWarmNAssert s = .next t) : Does s t := by
  unfold execWarmNAssert at h
  split at h
  · cases h; exact Effect.warms.does.trans_sameTables ⟨rfl, rfl, rfl, rfl, rfl⟩
  · cases h; exact does_of_sameTables ⟨rfl, rfl, rfl, rfl, rfl⟩

theorem execColdResetEnd_does (s t : State) (h : execColdResetEnd s = .next t) : Does s t := by
  unfold execColdResetEnd at h
  split at h
  · cases h; exact Effect.nothing.does
  · split at h
    · split at h
      · cases h; exact Effect.warms.does.trans_sameTables ⟨rfl, rfl, rfl, rfl, rfl⟩
      · cases h; exact does_of_sameTables ⟨rfl, rfl, rfl, rfl, rfl⟩
    · cases h; exact Effect.nothing.does
  · cases h; exact Effect.nothing.does

theorem execPwrgoodRise_sameTables (s t : State) (h : execPwrgoodRise s = .next t) : SameTables s t := by
  unfold execPwrgoodRise at h
  split at h <;> cases h <;> exact ⟨rfl, rfl, rfl, rfl, rfl⟩

theorem execAckTimerExpiry_sameTables (s t : State) (h : execAckTimerExpiry s = .next t) : SameTables s t := by
  unfold execAckTimerExpiry at h
  split at h <;> cases h <;> exact ⟨rfl, rfl, rfl, rfl, rfl⟩

theorem execUnknownCommand_does (h : Header) (body : List Byte) (s t : State) (ht : execUnknownCommand h body s = .next t) :
    Does s t := by
  cases ht
  refine atPort_does _ _ _ s fun r => ?_
  split
  · exact Effect.nothing.does
  · split <;> exact Effect.nothing.does

theorem execNoticeAck_does (h : Header) (body : List Byte) (s t : State) (ht : execNoticeAck h body s = .next t) : Does s t := by
  cases ht
  refine atPort_does _ _ _ s fun r => ?_
  split
  · exact does_of_sameTables (acknowledgeNotice_sameTables s r _)
  · exact Effect.nothing.does

/-- What a command can do: of all 44, only the fall of PWRGOOD has an effect that is not among these. -/
theorem exec_does (c : Instr) (s t : State) (h : exec c s = .next t) (fall : c ≠ .pwrgoodFall) : Does s t := by
  cases c with
  | read header body => cases h; exact accessAtPort_does .read header body s
  | write header body => cases h; exact accessAtPort_does .write header body s
  | noticeAck header body => exact execNoticeAck_does header body s t h
  | openWindow header ops => cases h; exact manage_does _ _ _ s fun t block ran => (openCommand_effect ops s t block ran).does
  | amend header ops => cases h; exact manage_does _ _ _ s fun t block ran => (amendCommand_effect ops s t block ran).does
  | renew header ops => cases h; exact manage_does _ _ _ s fun t block ran => (renewCommand_effect ops s t block ran).does
  | freeze header ops => cases h; exact manage_does _ _ _ s fun t block ran => (freezeCommand_effect ops s t block ran).does
  | close header ops => cases h; exact manage_does _ _ _ s fun t block ran => (closeCommand_effect ops s t block ran).does
  | closeWithAbandon header ops =>
    cases h; exact manage_does _ _ _ s fun t block ran => (closeCommand_effect ops s t block ran).does
  | query header ops => cases h; exact (queryCommand_onlyReads ops).does header ops s
  | lookup header ops => cases h; exact (lookupCommand_onlyReads ops).does header ops s
  | bringOnline header ops =>
    cases h; exact manage_does _ _ _ s fun t block ran => (bringOnlineCommand_effect ops s t block ran).does
  | takeOffline header ops =>
    cases h; exact manage_does _ _ _ s fun t block ran => (takeOfflineCommand_effect ops s t block ran).does
  | resume header ops => cases h; exact manage_does _ _ _ s fun t block ran => (resumeCommand_effect ops s t block ran).does
  | resetSegment header ops =>
    cases h; exact manage_does _ _ _ s fun t block ran => (resetSegmentCommand_effect ops s t block ran).does
  | segmentStatus header ops => cases h; exact (segmentStatusCommand_onlyReads ops).does header ops s
  | pendingStatus header ops => cases h; exact (pendingStatusCommand_onlyReads ops).does header ops s
  | cancelRequester header ops =>
    cases h; exact manage_does _ _ _ s fun t block ran => (cancelRequesterCommand_effect ops s t block ran).does
  | resumeNotices header ops =>
    cases h; exact manage_does _ _ _ s fun t block ran => does_of_sameTables (resumeNoticesCommand_sameTables ops s t block ran)
  | noticeStatus header ops => cases h; exact (noticeStatusCommand_onlyReads ops).does header ops s
  | readSetting header ops => cases h; exact (readSettingCommand_onlyReads ops).does header ops s
  | writeSetting header ops => cases h; exact manage_does _ _ _ s fun t block ran => writeSettingCommand_does ops s t block ran
  | noticeTarget header rest =>
    cases h; exact manage_does _ _ _ s fun t block ran => writeSettingCommand_does (0x07 :: rest) s t block ran
  | segnWidth header rest =>
    cases h; exact manage_does _ _ _ s fun t block ran => writeSettingCommand_does (0x10 :: rest) s t block ran
  | managementSet header rest =>
    cases h; exact manage_does _ _ _ s fun t block ran => writeSettingCommand_does (0x01 :: rest) s t block ran
  | identify header ops => cases h; exact (identifyCommand_onlyReads ops).does header ops s
  | warmReset header ops =>
    cases h; exact manage_does _ _ _ s fun t block ran => (warmResetCommand_effect ops s t block ran).does
  | unknownCommand header body => exact execUnknownCommand_does header body s t h
  | warmNAssert => exact execWarmNAssert_does s t h
  | warmNRelease =>
    cases h
    have released : SameTables s { s with warmN := false } := ⟨rfl, rfl, rfl, rfl, rfl⟩
    exact does_of_sameTables (released.trans (sameTables_leaveRestarting _))
  | pwrgoodFall => exact absurd rfl fall
  | coldResetEnd => exact execColdResetEnd_does s t h
  | leaseExpiry w => exact execLeaseExpiry_does s t w h
  | discardExpiry slot => exact execDiscardExpiry_does s t slot h
  | cycleTimeout n => cases h; exact (Effect.timesOut n).does
  | cycleAcknowledged answered data => cases h; exact (Effect.acknowledges answered data).does
  | targetError answered => cases h; exact (Effect.errs answered).does
  | resetPulseExpiry n => cases h; exact endPulse_does s n
  | ackTimerExpiry => exact does_of_sameTables (execAckTimerExpiry_sameTables s t h)
  | takeHead n => cases h; exact (Effect.takesHead n).does
  | noticeSend => cases h; exact does_of_sameTables (sameTables_sendHead s)
  | pwrgoodRise => exact does_of_sameTables (execPwrgoodRise_sameTables s t h)
  | askOfUnknownKind message => cases h; exact atPort_does _ _ _ s fun _ => Effect.nothing.does
  | messageLeavesPort which => cases h; exact does_of_sameTables (sameTables_send s which)

/-! ### Invariants of the tables -/

/-- What speaks of the tables alone and outlasts a tick, the fall of PWRGOOD and every effect outlasts every step. -/
theorem step_keeps (P : State → Prop) (tables : ∀ s t, SameTables s t → P s → P t) (tick : ∀ s, P s → P s.tick)
    (cold : ∀ s, P s → P s.coldReset) (effect : ∀ s t, Effect s t → P s → P t) (s t : State) (hs : P s)
    (h : step s = .next t) : P t := by
  unfold step at h
  split at h
  · cases h; exact tick s hs
  · rename_i c rest _
    have hs' : P { s with pending := rest } := tables s _ ⟨rfl, rfl, rfl, rfl, rfl⟩ hs
    by_cases fall : c = .pwrgoodFall
    · subst fall; cases h; exact cold _ hs'
    · obtain ⟨u, did, same⟩ := exec_does c _ t h fall
      exact tables u t same (effect _ u did hs')

end Sys2Proof.Proofs.Effects

/-! SUPPORT. The Window Table through every step (R3, R7, R9, R27, R33, R37, R44): how one record can change, and where a new mapping is
installed. -/

namespace Sys2Proof.Proofs.Windows

open Sys2Proof Sys2Proof.Machine Sys2Proof.Safety Sys2Proof.Proofs.Counts Sys2Proof.Proofs.Effects
open Sys2Proof.Proofs.Scope Sys2Proof.Proofs.WindowTable

/-! ### One record -/

/-- How one record can change and keep its mapping. -/
inductive RecordMove : Window → Window → Prop
  | same (w : Window) : RecordMove w w
  | rises (w : Window) : RecordMove w { w with inFlight := w.inFlight + 1 }
  | falls (w : Window) (k : Nat) : RecordMove w (lowered w k)
  | closes (w : Window) (reason : RetireReason) (k : Nat) (allowed : WindowOk w → w.state ≠ .free ∧ w.frozen = false) :
      RecordMove w (lowered (w.closed reason) k)
  | renews (w : Window) (lease : Option Timer) (opened : w.state = .opened) (thawed : w.frozen = false) :
      RecordMove w { w with lease := lease }
  | freezes (w : Window) (opened : w.state = .opened) (thawed : w.frozen = false) :
      RecordMove w { w with frozen := true, lease := none }
  | warms (w : Window) : RecordMove w w.warm
  | ticks (w : Window) : RecordMove w w.tick

theorem recordMove_fallen (w : Window) (k : Nat) : RecordMove w (fallen w k) := by
  unfold fallen
  split
  · exact .same w
  · exact .falls w k

/-- A window that takes part in lookups after a change did so before, and over the same range. -/
theorem RecordMove.range {v w : Window} (h : RecordMove v w) (ok : WindowOk v) (visible : w.visible = true) :
    v.visible = true ∧ w.space = v.space ∧ w.base = v.base ∧ w.limit = v.limit := by
  simp only [Window.visible, decide_eq_true_eq] at visible ⊢
  cases h with
  | same => exact ⟨visible, rfl, rfl, rfl⟩
  | rises => exact ⟨visible, rfl, rfl, rfl⟩
  | falls k => exact ⟨fun free => visible (by simp [lowered, free]), rfl, rfl, rfl⟩
  | closes reason k allowed => exact ⟨(allowed ok).1, rfl, rfl, rfl⟩
  | renews => exact ⟨visible, rfl, rfl, rfl⟩
  | freezes => exact ⟨visible, rfl, rfl, rfl⟩
  | warms => exact ⟨fun free => visible (by simp [Window.warm, free]), rfl, rfl, rfl⟩
  | ticks => exact ⟨visible, rfl, rfl, rfl⟩

theorem RecordMove.mappingOk {v w : Window} (h : RecordMove v w) : w.mappingOk = v.mappingOk := by
  cases h <;> rfl

/-- A record without a frozen flag or a lease is as it should be, where its mapping is and it does not stay CLOSING with nothing in
flight. -/
theorem windowOk_of_plain (w : Window) (mapping : w.visible = true → w.mappingOk = true ∧ w.limit ≤ 0xFFFFFFFF)
    (lease : w.lease = none) (thawed : w.frozen = false) (closing : w.state = .closing → 0 < w.inFlight) : WindowOk w :=
  ⟨fun v => (mapping v).1, fun v => (mapping v).2, fun leased => absurd leased (by simp [lease]),
    fun frozen => absurd frozen (by simp [thawed]), closing⟩

/-- CLOSING after the fall of its count, a window has items left (R44). -/
theorem lowered_closing (w : Window) (k : Nat) (h : (lowered w k).state = .closing) :
    w.state = .closing ∧ 0 < (lowered w k).inFlight := by
  unfold lowered at h ⊢
  dsimp only at h ⊢
  split at h
  · cases h
  · rename_i stays
    exact ⟨h, Nat.pos_of_ne_zero fun none => stays ⟨h, none⟩⟩

theorem lowered_state_of_opened (w : Window) (k : Nat) (h : w.state = .opened) : (lowered w k).state = .opened := by
  simp [lowered, h]

theorem RecordMove.windowOk {v w : Window} (h : RecordMove v w) (ok : WindowOk v) : WindowOk w := by
  have mapping : w.visible = true → w.mappingOk = true ∧ w.limit ≤ 0xFFFFFFFF := fun visible => by
    obtain ⟨before, -, -, limit⟩ := h.range ok visible
    exact ⟨h.mappingOk.trans (ok.mapping before), limit ▸ ok.top before⟩
  have idle : v.frozen = true → v.lease = none := fun frozen =>
    Option.not_isSome_iff_eq_none.1 fun leased => by simp [(ok.lease leased).2] at frozen
  cases h with
  | same => exact ok
  | rises => exact ⟨fun x => (mapping x).1, fun x => (mapping x).2, ok.lease, ok.frozen, fun _ => Nat.succ_pos _⟩
  | falls k =>
    exact ⟨fun x => (mapping x).1, fun x => (mapping x).2,
      fun leased => ⟨lowered_state_of_opened v k (ok.lease leased).1, (ok.lease leased).2⟩,
      fun frozen => lowered_state_of_opened v k (ok.frozen frozen), fun closing => (lowered_closing v k closing).2⟩
  | closes reason k allowed =>
    exact windowOk_of_plain _ mapping rfl (allowed ok).2 fun closing => (lowered_closing _ k closing).2
  | renews lease opened thawed =>
    exact ⟨fun x => (mapping x).1, fun x => (mapping x).2, fun _ => ⟨opened, thawed⟩, fun _ => opened, ok.closing⟩
  | freezes opened thawed =>
    exact ⟨fun x => (mapping x).1, fun x => (mapping x).2, fun leased => absurd leased (by simp), fun _ => opened, ok.closing⟩
  | warms =>
    cases frozen : v.frozen with
    | false => exact windowOk_of_plain _ mapping rfl frozen fun closing => absurd closing (by simp [Window.warm, frozen])
    | true =>
      have opened : v.warm.state = .opened := by simp [Window.warm, frozen, ok.frozen frozen]
      exact ⟨fun x => (mapping x).1, fun x => (mapping x).2, fun leased => absurd leased (by simp [Window.warm]), fun _ => opened,
        fun closing => absurd (opened.symm.trans closing) (by decide)⟩
  | ticks =>
    exact ⟨fun x => (mapping x).1, fun x => (mapping x).2, fun leased => ok.lease (by simpa [Window.tick] using leased),
      ok.frozen, ok.closing⟩

/-- A frozen window keeps all but its in-flight count (R7, R37). -/
theorem RecordMove.frozen_kept {v w : Window} (h : RecordMove v w) (ok : WindowOk v) (frozen : v.frozen = true) :
    ∃ k, w = { v with inFlight := k } := by
  have opened := ok.frozen frozen
  have lease : v.lease = none := Option.not_isSome_iff_eq_none.1 fun leased => by simp [(ok.lease leased).2] at frozen
  cases h with
  | same => exact ⟨_, rfl⟩
  | rises => exact ⟨_, rfl⟩
  | falls k => exact ⟨v.inFlight - k, by simp [lowered, opened]⟩
  | closes reason k allowed => simp [(allowed ok).2] at frozen
  | renews lease _ thawed => simp [thawed] at frozen
  | freezes _ thawed => simp [thawed] at frozen
  | warms => exact ⟨0, by simp only [Window.warm, frozen, ← lease]; rfl⟩
  | ticks => exact ⟨v.inFlight, by simp only [Window.tick, lease]; cases v; simp_all⟩

/-! ### The whole table -/

/-- What can become of the Window Table: every record moves on its own, or OPEN or AMEND installs a mapping in one of them, which
overlaps no other window. -/
inductive TableMove (s t : State) : Prop
  | records (moves : ∀ w : WindowNumber, RecordMove s.windows[w] t.windows[w])
  | installs (w : WindowNumber) (r : Window) (opened : r.state = .opened) (thawed : r.frozen = false) (mapping : r.mappingOk = true)
      (top : WindowOk s.windows[w] → r.limit ≤ 0xFFFFFFFF) (clear : s.blocked w r = false)
      (vacant : s.windows[w].state = .free ∨ s.windows[w].frozen = false) (written : t.windows = (s.setWindow w r).windows)

theorem tableMove_of_sameWindows {s t : State} (h : t.windows = s.windows) : TableMove s t :=
  .records fun w => by rw [h]; exact .same _

/-- One record written. -/
theorem tableMove_setWindow (s : State) (w : WindowNumber) (r : Window) (h : RecordMove s.windows[w] r) :
    TableMove s (s.setWindow w r) := by
  refine .records fun v => ?_
  rw [window_after_set]
  by_cases here : v = w
  · rw [if_pos here, here]; exact h
  · rw [if_neg here]; exact .same _

theorem tableMove_lowerRoute {s t : State} (r : Route) (h : t.windows = s.windows) : TableMove s (t.lowerRoute r) :=
  .records fun w => by rw [lowerRoute_window, h]; exact recordMove_fallen _ _

theorem tableMove_lowerRoutes {s t : State} (routes : List Route) (h : t.windows = s.windows) :
    TableMove s (t.lowerRoutes routes) :=
  .records fun w => by rw [lowerRoutes_window, h]; exact recordMove_fallen _ _

theorem tableMove_raiseRoute {s t : State} (r : Route) (h : t.windows = s.windows) : TableMove s (t.raiseRoute r) := by
  cases r with
  | defaultRoute => exact tableMove_of_sameWindows h
  | window w g =>
    by_cases present : g = t.windows[w].generation
    · subst present
      refine .records fun v => ?_
      have route : Route.window w t.windows[w].generation = t.routeOf w := rfl
      rw [route, raiseRoute_window, h]
      by_cases here : v = w
      · rw [if_pos here, here]; exact .rises _
      · rw [if_neg here]; exact .same _
    · rw [raiseRoute_stale t w g present]; exact tableMove_of_sameWindows h

/-- A window closed, and then its count lowered: CLOSE, the expiry of a lease, and the abandonment. -/
theorem tableMove_close (s t : State) (w : WindowNumber) (reason : RetireReason) (k : Nat)
    (allowed : WindowOk s.windows[w] → s.windows[w].state ≠ .free ∧ s.windows[w].frozen = false)
    (h : t.windows = (s.setWindow w (s.windows[w].closed reason)).windows) : TableMove s (t.lower w k) := by
  refine .records fun v => ?_
  rw [lower_window, h, window_after_set, window_after_set, if_pos rfl]
  by_cases here : v = w
  · rw [if_pos here, here]; exact .closes _ reason k allowed
  · rw [if_neg here, if_neg here]; exact .same _

/-- A run of completions touches the entries alone. -/
theorem foldl_completeEntry_eq (s : State) (l : List Slot) (o : EntryOutcome) (d : Option (List Byte)) :
    l.foldl (fun t slot => t.completeEntry slot o d) s
      = { s with entries := (l.foldl (fun t slot => t.completeEntry slot o d) s).entries } := by
  induction l generalizing s with
  | nil => rfl
  | cons x xs ih => exact (ih (s.completeEntry x o d)).trans rfl

/-- A run of entries that a reset ends touches the entries alone. -/
theorem foldl_resetEntry_eq (s : State) (l : List Slot) :
    l.foldl State.resetEntry s = { s with entries := (l.foldl State.resetEntry s).entries } := by
  induction l generalizing s with
  | nil => rfl
  | cons x xs ih =>
    have one : s.resetEntry x = { s with entries := (s.resetEntry x).entries } := by
      unfold State.resetEntry
      split <;> rfl
    refine (ih (s.resetEntry x)).trans ?_
    rw [List.foldl_cons]
    generalize xs.foldl State.resetEntry (s.resetEntry x) = u
    rw [one]

/-- The state of an abandonment before the losses are reported (R41, R42). -/
theorem abandonItems_eq (s : State) (r : Route) :
    s.abandonItems r
      = (((s.abandonedSlots r).foldl (fun t slot => t.completeEntry slot .abandoned none) s).withdraw (s.abandons r)).setNotices
          (allSegments.foldl (fun u n => lostNotice n .abandoned (s.abandonedPosted r n) u)
            (((s.abandonedSlots r).foldl (fun t slot => t.completeEntry slot .abandoned none) s).withdraw (s.abandons r)).notices) := by
  unfold State.abandonItems
  exact raiseLost_fold _ _ _ _

theorem withdraw_windows (s : State) (gone : Item → Bool) : (s.withdraw gone).windows = s.windows := rfl

theorem withdraw_entries (s : State) (gone : Item → Bool) : (s.withdraw gone).entries = s.entries := rfl

theorem withdraw_settings (s : State) (gone : Item → Bool) : (s.withdraw gone).settings = s.settings := rfl

theorem withdraw_cyclesStarted (s : State) (gone : Item → Bool) : (s.withdraw gone).cyclesStarted = s.cyclesStarted := rfl

theorem abandonItems_windows (s : State) (r : Route) : (s.abandonItems r).windows = s.windows := by
  rw [abandonItems_eq, State.setNotices_windows, withdraw_windows, foldl_completeEntry_eq]

theorem cancelEntries_windows (s : State) (r : Requester) : (s.cancelEntries r).windows = s.windows := rfl

theorem tableMove_accept (s : State) (x : HandOff) : TableMove s (s.accept x).1 := by
  unfold State.accept State.acceptPosted State.acceptPending
  split
  · split
    · exact tableMove_raiseRoute x.route rfl
    · exact tableMove_of_sameWindows rfl
  · split
    · exact tableMove_of_sameWindows rfl
    · split
      · exact tableMove_raiseRoute x.route rfl
      · exact tableMove_of_sameWindows rfl

theorem tableMove_endItem {s t : State} (n : SegmentNumber) (result : ItemResult) (h : t.windows = s.windows) :
    TableMove s (t.endItem n result) := by
  unfold State.endItem State.handBack
  dsimp only
  split
  · exact tableMove_of_sameWindows h
  · split
    · split
      · exact tableMove_lowerRoute _ h
      · exact tableMove_of_sameWindows h
    · split
      · exact tableMove_lowerRoute _ h
      · exact tableMove_lowerRoute _ h

theorem TableMove.sameWindows {s t u : State} (h : TableMove s t) (k : u.windows = t.windows) : TableMove s u := by
  cases h with
  | records moves => exact .records fun w => k ▸ moves w
  | installs w r opened thawed mapping top clear vacant written =>
    exact .installs w r opened thawed mapping top clear vacant (k.trans written)

theorem startCycle_windows (s : State) (n : SegmentNumber) (e : Engine) (cycles : List Cycle) :
    (s.startCycle n e cycles).windows = s.windows := by
  rw [startCycle_eq]; rfl

theorem takeHead_windows (s : State) (n : SegmentNumber) : (s.takeHead n).windows = s.windows := by
  unfold State.takeHead
  dsimp only
  split
  · split
    · rfl
    · rename_i i rest _
      cases i <;> exact startCycle_windows s n _ _
  · rfl

theorem tableMove_acknowledge (s : State) (answered : CycleName) (data : BitVec 16) : TableMove s (s.acknowledge answered data) := by
  unfold State.acknowledge
  dsimp only
  split
  · exact tableMove_of_sameWindows rfl
  · split
    · exact tableMove_endItem _ _ rfl
    · exact tableMove_of_sameWindows (startCycle_windows s _ _ _)

theorem tableMove_timeOut (s : State) (n : SegmentNumber) : TableMove s (s.timeOut n) := by
  have ended : TableMove s (s.endItem n .noResponse) := tableMove_endItem n _ rfl
  unfold State.timeOut
  dsimp only
  split
  · split <;> exact ended.sameWindows rfl
  · exact tableMove_of_sameWindows rfl

theorem tableMove_errCycle (s : State) (answered : CycleName) : TableMove s (s.errCycle answered) := by
  have ended : TableMove s (s.endItem answered.segment .targetError) := tableMove_endItem _ _ rfl
  unfold State.errCycle
  dsimp only
  split
  · exact tableMove_of_sameWindows rfl
  · split <;> exact ended.sameWindows rfl

/-- A lease is held by an OPEN window that is not frozen only: what may be closed is in use and not frozen (R33, R34, R38). -/
theorem closable (w : Window) (ok : WindowOk w) (h : w.state = .opened ∧ w.frozen = false ∨ w.lease.isSome = true) :
    w.state ≠ .free ∧ w.frozen = false := by
  obtain ⟨opened, thawed⟩ := h.elim id ok.lease
  exact ⟨by rw [opened]; decide, thawed⟩

theorem tableMove_warmReset (s : State) : TableMove s s.warmReset := by
  refine .records fun w => ?_
  have after : s.warmReset.windows[w] = s.windows[w].warm := warmReset_window s w
  rw [after]
  exact .warms _

theorem tableMove_of_effect {s t : State} (h : Effect s t) : TableMove s t := by
  cases h with
  | nothing => exact tableMove_of_sameWindows rfl
  | endsEntry slot done => exact tableMove_lowerRoute _ rfl
  | accepts a x new passes => exact tableMove_accept s x
  | opens w o free mapping top clear =>
    exact .installs w _ rfl rfl mapping (fun _ => top) clear (.inl ((visible_eq_false_iff _).1 free)) rfl
  | amends w o allowed mapping top clear =>
    obtain ⟨opened, thawed⟩ := (changeRefused_eq_none_iff _).1 allowed
    refine .installs w (o.merged s.windows[w]) opened thawed mapping (fun ok => ?_) clear (.inr thawed) rfl
    have held : s.windows[w].limit ≤ 0xFFFFFFFF := ok.top (by simp [-Fin.getElem_fin, Window.visible, opened])
    show o.limit.getD s.windows[w].limit ≤ _
    cases hl : o.limit with
    | none => exact held
    | some n => rwa [hl] at top
  | renews w lease allowed =>
    obtain ⟨opened, thawed⟩ := (changeRefused_eq_none_iff _).1 allowed
    exact tableMove_setWindow s w _ (.renews _ lease opened thawed)
  | freezes w allowed =>
    obtain ⟨opened, thawed⟩ := (changeRefused_eq_none_iff _).1 allowed
    exact tableMove_setWindow s w _ (.freezes _ opened thawed)
  | closes w reason allowed =>
    rw [settle_eq_lower]
    exact tableMove_close s _ w reason 0 (fun ok => closable _ ok allowed) rfl
  | abandons w used thawed =>
    unfold State.abandon
    have closed := abandonItems_windows (s.setWindow w (s.windows[w].closed .abandoned)) (s.routeOf w)
    exact tableMove_close s _ w .abandoned _ (fun _ => ⟨used, thawed⟩) closed
  | cancels r =>
    exact tableMove_lowerRoutes (s.cancelledRoutes r) ((withdraw_windows _ _).trans (cancelEntries_windows s r))
  | turns n e turn => exact tableMove_of_sameWindows rfl
  | resets n =>
    refine tableMove_lowerRoutes _ ?_
    rw [raiseLost_eq, State.setNotices_windows, State.setEngine_windows, foldl_resetEntry_eq]
  | takesHead n => exact tableMove_of_sameWindows (takeHead_windows s n)
  | acknowledges answered data => exact tableMove_acknowledge s answered data
  | timesOut n => exact tableMove_timeOut s n
  | errs answered => exact tableMove_errCycle s answered
  | warms => exact tableMove_warmReset s
  | writes name value v field written => exact tableMove_of_sameWindows rfl

/-! ### The invariant -/

/-- A window of the table: it moved on its own, or a mapping was installed in it. -/
theorem TableMove.record {s t : State} (h : TableMove s t) (w : WindowNumber) :
    RecordMove s.windows[w] t.windows[w]
      ∨ (s.windows[w].state = .free ∨ s.windows[w].frozen = false) ∧ t.windows[w].state = .opened ∧ t.windows[w].frozen = false
        ∧ t.windows[w].mappingOk = true ∧ (WindowOk s.windows[w] → t.windows[w].limit ≤ 0xFFFFFFFF) := by
  cases h with
  | records moves => exact .inl (moves w)
  | installs v r opened thawed mapping top clear vacant written =>
    rw [written, window_after_set]
    by_cases here : w = v
    · subst here
      rw [if_pos rfl]
      exact .inr ⟨vacant, opened, thawed, mapping, top⟩
    · rw [if_neg here]
      exact .inl (.same _)

theorem TableMove.windowOk {s t : State} (h : TableMove s t) (w : WindowNumber) (ok : WindowOk s.windows[w]) :
    WindowOk t.windows[w] := by
  rcases h.record w with move | ⟨-, opened, thawed, mapping, top⟩
  · exact move.windowOk ok
  · exact ⟨fun _ => mapping, fun _ => top ok, fun _ => ⟨opened, thawed⟩, fun _ => opened,
      fun closing => absurd (opened.symm.trans closing) (by decide)⟩

/-- A mapping that is not blocked overlaps no other window in use (R27, R30). -/
theorem overlaps_eq_false_of_clear (s : State) (w v : WindowNumber) (r : Window) (clear : s.blocked w r = false) (other : v ≠ w)
    (visible : s.windows[v].visible = true) : s.windows[v].overlaps r = false := by
  by_contra overlap
  refine absurd clear (Bool.not_eq_false _ |>.mpr ?_)
  refine List.any_eq_true.2 ⟨v, List.mem_finRange v, ?_⟩
  rw [decide_eq_true other, visible, Bool.not_eq_false _ |>.mp overlap]; rfl

theorem overlaps_comm (v w : Window) : v.overlaps w = w.overlaps v := by
  simp only [Window.overlaps, eq_comm (a := v.space), Bool.and_assoc, Bool.and_comm (decide (v.base ≤ w.limit))]

theorem TableMove.disjoint {s t : State} (h : TableMove s t) (ok : WindowTableOk s) (v w : WindowNumber) (other : v ≠ w)
    (hv : t.windows[v].visible = true) (hw : t.windows[w].visible = true) : t.windows[v].overlaps t.windows[w] = false := by
  cases h with
  | records moves =>
    obtain ⟨seenV, spaceV, baseV, limitV⟩ := (moves v).range (ok.records v) hv
    obtain ⟨seenW, spaceW, baseW, limitW⟩ := (moves w).range (ok.records w) hw
    have before := ok.disjoint v w other seenV seenW
    rwa [Window.overlaps, spaceV, baseV, limitV, spaceW, baseW, limitW]
  | installs u r opened thawed mapping top clear vacant written =>
    simp only [written, window_after_set] at hv hw ⊢
    by_cases atV : v = u
    · have notW : w ≠ u := fun e => other (atV.trans e.symm)
      rw [if_neg notW] at hw ⊢
      rw [if_pos atV, overlaps_comm]
      exact overlaps_eq_false_of_clear s u w r clear notW hw
    · rw [if_neg atV] at hv ⊢
      by_cases atW : w = u
      · rw [if_pos atW]
        exact overlaps_eq_false_of_clear s u v r clear atV hv
      · rw [if_neg atW] at hw ⊢
        exact ok.disjoint v w other hv hw

theorem TableMove.windowTableOk {s t : State} (h : TableMove s t) (ok : WindowTableOk s) : WindowTableOk t :=
  ⟨fun w => h.windowOk w (ok.records w), h.disjoint ok⟩

theorem windowOk_cold : WindowOk Window.cold :=
  windowOk_of_plain _ (fun visible => absurd visible (by decide)) rfl rfl fun closing => absurd closing (by decide)

/-- A table of records at their cold values. -/
theorem windowTableOk_of_cold (s : State) (h : ∀ w : WindowNumber, s.windows[w] = Window.cold) : WindowTableOk s :=
  ⟨fun w => h w ▸ windowOk_cold, fun v w _ visible => absurd visible (by rw [h v]; decide)⟩

theorem coldReset_window (s : State) (w : WindowNumber) : s.coldReset.windows[w] = Window.cold := by simp [State.coldReset]

theorem tableMove_tick (s : State) : TableMove s s.tick :=
  .records fun w => by rw [tick_window]; exact .ticks _

theorem step_keeps_windowTable (s t : State) (ok : WindowTableOk s) (h : step s = .next t) : WindowTableOk t :=
  step_keeps WindowTableOk (fun _ _ same => (tableMove_of_sameWindows same.windows).windowTableOk)
    (fun s => (tableMove_tick s).windowTableOk) (fun s _ => windowTableOk_of_cold _ (coldReset_window s))
    (fun _ _ effect => (tableMove_of_effect effect).windowTableOk) s t ok h

/-- Settles O57: each effect moves every record on its own or installs one mapping, and both keep the table. -/
theorem stepsKeepTheWindowTable : Obligations.StepsKeepTheWindowTable := step_keeps_windowTable

/-- Settles O28: a frozen window is OPEN, so no mapping is installed in it, and of the moves of a record those that change more than
its count ask for a window that is not frozen. -/
theorem frozenWindowsAreKept : Obligations.FrozenWindowsAreKept := by
  intro c s t w ok frozen fall h
  obtain ⟨u, effect, same⟩ := exec_does c s t h fall
  rw [same.windows]
  rcases (tableMove_of_effect effect).record w with move | ⟨free | thawed, -⟩
  · exact move.frozen_kept ok frozen
  · exact absurd ((ok.frozen frozen).symm.trans free) (by decide)
  · exact absurd (frozen.symm.trans thawed) (by decide)

end Sys2Proof.Proofs.Windows

/-! SUPPORT. The settings and the Segment Engines through every step (R95, R111, R112, R120, R158, R163): how one engine can change. -/

namespace Sys2Proof.Proofs.Engines

open Sys2Proof Sys2Proof.Machine Sys2Proof.Safety Sys2Proof.Proofs.Counts Sys2Proof.Proofs.Effects
open Sys2Proof.Proofs.Scope Sys2Proof.Proofs.WindowTable Sys2Proof.Proofs.Windows

/-! ### The settings -/

/-- The settings are in their ranges where the value of each is one that its row of R158 admits. -/
theorem settingsOk_iff_admitted (v : Settings) : SettingsOk v ↔ ∀ name, admits name (v.value name) := by
  have option {n : Nat} (hn : n ≤ 32) (x : Option (Fin n)) : optionValue x ≤ n - 1 ∨ optionValue x = 0xFFFFFFFF := by
    cases x with
    | none => exact .inr rfl
    | some k => exact .inl (Nat.le_sub_one_of_lt k.isLt)
  constructor
  · intro ok name
    cases name with
    | managementSet => exact fun zero => ok.managementSet (BitVec.eq_of_toNat_eq zero)
    | pendingQuota => exact ok.pendingQuota
    | discardInterval => exact ok.discardInterval
    | defaultRouteMemory => exact option (by decide) v.defaultRouteMemory
    | defaultRouteIo => exact option (by decide) v.defaultRouteIo
    | defaultAbsentPolicy => simp only [admits, Settings.value]; cases v.defaultAbsentPolicy <;> decide
    | noticeTarget => exact option (by decide) v.noticeTarget
    | noticeAckTimeout => exact ok.noticeAckTimeout
    | width n => simp only [admits, Settings.value]; cases v.segments[n].width <;> decide
    | cycleTimeout n => exact (ok.segments n).cycleTimeout
    | noResponseLimit n => exact (ok.segments n).noResponseLimit
    | haltOnError n => simp only [admits, Settings.value]; cases v.segments[n].haltOnError <;> decide
    | resetPulse n => exact (ok.segments n).resetPulse
  · intro admitted
    exact ⟨fun zero => admitted .managementSet (congrArg BitVec.toNat zero), admitted .pendingQuota, admitted .discardInterval,
      admitted .noticeAckTimeout, fun n => ⟨admitted (.cycleTimeout n), admitted (.noResponseLimit n), admitted (.resetPulse n)⟩⟩

/-- A write of a setting is of an admitted value and leaves the others (R161). -/
theorem write_keeps_settingsOk (v u : Settings) (name : SettingName) (value : Nat) (field : value ≤ 0xFFFFFFFF)
    (written : v.write name value = some u) (ok : SettingsOk v) : SettingsOk u := by
  rw [settingsOk_iff_admitted] at ok ⊢
  by_cases admitted : admits name value
  · obtain ⟨u', written', new, others⟩ := write_admitted v name value field admitted
    cases written.symm.trans written'
    intro other
    by_cases same : other = name
    · rw [same, new]; exact admitted
    · rw [others other same]; exact ok other
  · rw [write_refused v name value admitted] at written; cases written

theorem segmentSettingsOk_initial : SegmentSettingsOk SegmentSettings.initial := ⟨by decide, by decide, by decide⟩

theorem settingsOk_initial : SettingsOk Settings.initial :=
  ⟨by decide, by decide, by decide, by decide, fun n => (reset_segmentSettings n).symm ▸ segmentSettingsOk_initial⟩

/-! ### One engine -/

/-- How one engine can change, where the numbers of the cycles started so far are those below `k`. -/
inductive EngineMove (k : Nat) : Engine → Engine → Prop
  | same (e : Engine) : EngineMove k e e
  | enqueues (e : Engine) (i : Item) (proceeds : e.refuses = none) (room : i.isPosted = true → e.postedCount < 8) :
      EngineMove k e { e with queue := e.queue ++ [i] }
  | withdraws (e : Engine) (stays : Item → Bool) : EngineMove k e { e with queue := e.queue.filter stays }
  | turns (e e' : Engine) (turn : EngineTurn e e') : EngineMove k e e'
  | resets (e : Engine) (back : ReturnState) (pulse : Nat) : EngineMove k e (.resettingTo back pulse)
  | takes (e : Engine) (i : Item) (rest : List Item) (current : Option RunningCycle) (remaining : List Cycle)
      (online : e.state = .online) (idle : e.inFlight = none) (head : e.queue = i :: rest) (numbers : ∀ x ∈ current, x.number < k) :
      EngineMove k e { e with queue := rest, inFlight := some i, kept := [], current := current, remaining := remaining }
  | goesOn (e : Engine) (kept : List Byte) (current : Option RunningCycle) (remaining : List Cycle) (runs : e.current.isSome = true)
      (numbers : ∀ x ∈ current, x.number < k) :
      EngineMove k e { e with kept := kept, noResponses := 0, current := current, remaining := remaining }
  | ends (e : Engine) (count : Nat) (runs : e.current.isSome = true) (below : count ≤ 14) :
      EngineMove k e { e.idle with noResponses := count }
  | faults (e : Engine) (count : Nat) (cause : FaultCause) (runs : e.current.isSome = true) (limit : count ≤ e.noResponses + 1)
      (halts : cause ≠ .none) : EngineMove k e { e.idle with noResponses := count, state := .faulted, faultCause := cause }
  | ticks (e : Engine) : EngineMove k e e.tick

/-- An engine that is not ONLINE has no item in flight and no cycle (R111). -/
theorem idle_of_ne_online (e : Engine) (ok : EngineOk e) (h : e.state ≠ .online) : e.inFlight = none ∧ e.current = none := by
  have free : e.inFlight = none := Option.not_isSome_iff_eq_none.1 fun busy => h (ok.inFlight busy)
  exact ⟨free, Option.not_isSome_iff_eq_none.1 fun runs => by simpa [free] using ok.current runs⟩

/-- An engine with a current cycle is ONLINE with an item in flight (R111). -/
theorem online_of_current (e : Engine) (ok : EngineOk e) (runs : e.current.isSome = true) :
    e.state = .online ∧ e.inFlight.isSome = true :=
  ⟨ok.inFlight (ok.current runs), ok.current runs⟩

theorem resetPulse_eq_none (e : Engine) (ok : EngineOk e) (h : e.state ≠ .resetting) : e.resetPulse = none :=
  Option.not_isSome_iff_eq_none.1 fun runs => h (ok.pulse.1 runs)

theorem engineOk_of_online (e : Engine) (online : e.state = .online) (carries : e.current.isSome = true → e.inFlight.isSome = true)
    (cause : e.faultCause = .none) (pulse : e.resetPulse = none) (count : e.noResponses ≤ 14) (posted : e.postedCount ≤ 8) :
    EngineOk e := by
  refine ⟨fun _ => online, carries, ?_, ?_, ?_, ?_, count.trans (by decide), fun _ => count, ?_, posted⟩ <;> simp [online, cause, pulse]

theorem engineOk_of_faulted (e : Engine) (faulted : e.state = .faulted) (idle : e.inFlight = none ∧ e.current = none)
    (cause : e.faultCause ≠ .none) (pulse : e.resetPulse = none) (count : e.noResponses ≤ 15) (posted : e.postedCount ≤ 8) :
    EngineOk e := by
  constructor <;> simp_all

theorem engineOk_of_offline (e : Engine) (offline : e.state = .offline) (idle : e.inFlight = none ∧ e.current = none)
    (empty : e.queue = []) (cause : e.faultCause = .none) (pulse : e.resetPulse = none) (count : e.noResponses = 0) :
    EngineOk e := by
  constructor <;> simp_all [Engine.postedCount, Engine.items]

theorem engineOk_of_resetting (e : Engine) (resetting : e.state = .resetting) (idle : e.inFlight = none ∧ e.current = none)
    (empty : e.queue = []) (cause : e.faultCause = .none) (pulse : e.resetPulse.isSome = true) (count : e.noResponses = 0) :
    EngineOk e := by
  constructor <;> simp_all [Engine.postedCount, Engine.items]

theorem engineOk_cold : EngineOk Engine.cold := engineOk_of_offline _ rfl ⟨rfl, rfl⟩ rfl rfl rfl rfl

theorem engineOk_of_turn (e e' : Engine) (turn : EngineTurn e e') (ok : EngineOk e) : EngineOk e' := by
  cases turn with
  | online offline =>
    exact engineOk_of_online _ rfl ok.current (ok.faultCause.2 (by rw [offline]; decide))
      (resetPulse_eq_none e ok (by rw [offline]; decide)) ((ok.clearedNoResponses (.inl offline)).trans_le (by decide)) ok.posted
  | offline quiet empty settled =>
    have still : e.current = none := Option.not_isSome_iff_eq_none.1 fun runs => by simpa [quiet] using ok.current runs
    exact engineOk_of_offline _ rfl ⟨quiet, still⟩ empty rfl (resetPulse_eq_none e ok settled) rfl
  | resumed faulted =>
    exact engineOk_of_online _ rfl ok.current rfl (resetPulse_eq_none e ok (by rw [faulted]; decide)) (Nat.zero_le _) ok.posted
  | pulseEnded runs =>
    have resetting := ok.pulse.1 runs
    have idle := idle_of_ne_online e ok (by rw [resetting]; decide)
    have cause := ok.faultCause.2 (by rw [resetting]; decide)
    have count := ok.clearedNoResponses (.inr resetting)
    cases back : e.returnState with
    | online => exact engineOk_of_online _ rfl ok.current cause rfl (count.trans_le (by decide)) ok.posted
    | offline => exact engineOk_of_offline _ rfl idle (ok.resettingOffline resetting back) cause rfl count

/-- An engine whose item has ended holds no more posted items. -/
theorem idle_postedCount_le (e : Engine) (ok : EngineOk e) : e.idle.postedCount ≤ 8 :=
  le_trans (List.Sublist.countP_le (List.sublist_append_right e.inFlight.toList e.queue)) ok.posted

/-- An engine that the segment state check lets pass is neither OFFLINE nor on its way there (R14). -/
theorem proceeds_of_refuses_eq_none (e : Engine) (h : e.refuses = none) : Proceeds e := by
  unfold Engine.refuses at h
  cases state : e.state with
  | online => exact .inl state
  | resetting => cases back : e.returnState <;> simp_all [Proceeds]
  | offline => simp [state] at h
  | faulted => simp [state] at h

theorem EngineMove.engineOk {k : Nat} {e e' : Engine} (h : EngineMove k e e') (ok : EngineOk e) : EngineOk e' := by
  cases h with
  | same => exact ok
  | enqueues i proceeds room =>
    have accepts := proceeds_of_refuses_eq_none e proceeds
    refine { ok with offlineEmpty := fun offline => ?_, resettingOffline := fun resetting back => ?_, posted := ?_ }
    · rcases accepts with online | ⟨resetting, -⟩
      · exact absurd (online.symm.trans offline) (by decide)
      · exact absurd (resetting.symm.trans offline) (by decide)
    · rcases accepts with online | ⟨-, online⟩
      · exact absurd (online.symm.trans resetting) (by decide)
      · exact absurd (online.symm.trans back) (by decide)
    · have count := ok.posted
      simp only [Engine.postedCount, Engine.items, List.countP_append, List.countP_singleton] at room count ⊢
      split
      · have := room ‹_›; omega
      · omega
  | withdraws stays =>
    refine { ok with
      offlineEmpty := fun offline => by simp [ok.offlineEmpty offline]
      resettingOffline := fun resetting back => by simp [ok.resettingOffline resetting back]
      posted := le_trans (List.Sublist.countP_le ?_) ok.posted }
    exact List.Sublist.append_left List.filter_sublist _
  | turns _ turn => exact engineOk_of_turn e e' turn ok
  | resets back pulse => exact engineOk_of_resetting _ rfl ⟨rfl, rfl⟩ rfl rfl rfl rfl
  | takes i rest current remaining online idle head =>
    have count : (i :: rest).countP Item.isPosted ≤ 8 := by
      have := ok.posted
      rwa [Engine.postedCount, Engine.items, idle, head] at this
    exact engineOk_of_online _ online (fun _ => rfl) (ok.faultCause.2 (by rw [online]; decide))
      (resetPulse_eq_none e ok (by rw [online]; decide)) (ok.onlineNoResponses online) count
  | goesOn kept current remaining runs =>
    obtain ⟨online, busy⟩ := online_of_current e ok runs
    exact engineOk_of_online _ online (fun _ => busy) (ok.faultCause.2 (by rw [online]; decide))
      (resetPulse_eq_none e ok (by rw [online]; decide)) (Nat.zero_le _) ok.posted
  | ends count runs below =>
    obtain ⟨online, -⟩ := online_of_current e ok runs
    exact engineOk_of_online _ online (fun h => by cases h) (ok.faultCause.2 (by rw [online]; decide))
      (resetPulse_eq_none e ok (by rw [online]; decide)) below (idle_postedCount_le e ok)
  | faults count cause runs limit halts =>
    obtain ⟨online, -⟩ := online_of_current e ok runs
    have := ok.onlineNoResponses online
    exact engineOk_of_faulted _ rfl ⟨rfl, rfl⟩ halts (resetPulse_eq_none e ok (by rw [online]; decide))
      (limit.trans (by omega)) (idle_postedCount_le e ok)
  | ticks =>
    refine { ok with current := fun runs => ?_, pulse := ?_ }
    · exact ok.current (by simpa [Engine.tick] using runs)
    · have := ok.pulse
      simpa [Engine.tick] using this

/-- The cycle that is current after a move was current before, or has a number below `k` (log 17). -/
theorem EngineMove.numbers {j k : Nat} {e e' : Engine} (h : EngineMove k e e') (later : j ≤ k)
    (before : ∀ x ∈ e.current, x.number < j) : ∀ x ∈ e'.current, x.number < k := by
  have kept : ∀ x ∈ e.current, x.number < k := fun x hx => (before x hx).trans_le later
  cases h with
  | same => exact kept
  | enqueues => exact kept
  | withdraws => exact kept
  | turns _ turn => cases turn <;> exact kept
  | resets => intro x hx; cases hx
  | takes i rest current remaining online idle head numbers => exact numbers
  | goesOn bytes current remaining runs numbers => exact numbers
  | ends => intro x hx; cases hx
  | faults => intro x hx; cases hx
  | ticks =>
    intro x hx
    obtain ⟨y, hy, rfl⟩ := Option.map_eq_some_iff.1 hx
    exact kept y hy

/-! ### All engines -/

/-- What can become of the engines: each moves on its own, numbers are given out in ascending order, and a write of a setting leaves
the settings in their ranges. -/
structure EnginesMove (s t : State) : Prop where
  moves : ∀ n : SegmentNumber, EngineMove t.cyclesStarted s.engines[n] t.engines[n]
  started : s.cyclesStarted ≤ t.cyclesStarted
  settings : SettingsOk s.settings → SettingsOk t.settings

theorem EnginesMove.enginesOk {s t : State} (h : EnginesMove s t) (ok : EnginesOk s) : EnginesOk t :=
  ⟨h.settings ok.settings, fun n => (h.moves n).engineOk (ok.engines n),
    fun n => (h.moves n).numbers h.started (ok.numbers n)⟩

theorem enginesMove_of_sameEngines {s t : State} (engines : t.engines = s.engines) (started : t.cyclesStarted = s.cyclesStarted)
    (settings : t.settings = s.settings) : EnginesMove s t :=
  ⟨fun n => by rw [engines]; exact .same _, started.ge, fun ok => settings.symm ▸ ok⟩

/-- One engine written. -/
theorem enginesMove_of_set {s t : State} (n : SegmentNumber) (e : Engine) (engines : t.engines = (s.setEngine n e).engines)
    (started : s.cyclesStarted ≤ t.cyclesStarted) (settings : t.settings = s.settings)
    (h : EngineMove t.cyclesStarted s.engines[n] e) : EnginesMove s t := by
  refine ⟨fun m => ?_, started, fun ok => settings.symm ▸ ok⟩
  rw [engines, engine_after_set]
  by_cases here : m = n
  · rw [if_pos here, here]; exact h
  · rw [if_neg here]; exact .same _

theorem enginesMove_of_frame {s t u : State} (engines : t.engines = s.engines) (started : t.cyclesStarted = s.cyclesStarted)
    (settings : t.settings = s.settings) (frame : SameButWindows t u) : EnginesMove s u :=
  enginesMove_of_sameEngines (frame.engines.trans engines) (frame.cyclesStarted.trans started) (frame.settings.trans settings)

/-! ### The end of a cycle -/

theorem handBack_orphan (s : State) (n : SegmentNumber) (slot : Slot) (result : ItemResult) (kept : List Byte)
    (orphaned : s.entries[slot].orphaned = true) : s.handBack n (.reference slot) result kept = s.endEntry slot :=
  if_pos orphaned

theorem handBack_entry (s : State) (n : SegmentNumber) (slot : Slot) (result : ItemResult) (kept : List Byte)
    (awaited : s.entries[slot].orphaned = false) :
    s.handBack n (.reference slot) result kept = s.completeEntry slot result.outcome (s.entries[slot].readResult result kept) :=
  if_neg (by rw [awaited]; decide)

/-- The end of a posted item lowers its count, with or without a WRITE-LOST (R104, R105). -/
theorem handBack_posted (s : State) (n : SegmentNumber) (p : PostedItem) (result : ItemResult) (kept : List Byte) :
    SameTables (s.lowerRoute p.route) (s.handBack n (.posted p) result kept) := by
  unfold State.handBack
  dsimp only
  split
  · exact (sameTables_raise s _ _).lowerRoute _
  · exact .refl _

theorem handBack_cyclesStarted (s : State) (n : SegmentNumber) (i : Item) (result : ItemResult) (kept : List Byte) :
    (s.handBack n i result kept).cyclesStarted = s.cyclesStarted := by
  unfold State.handBack State.endEntry
  split
  · dsimp only
    split
    · exact (lowerRoute_frame _ _).cyclesStarted
    · rfl
  · split
    · exact (lowerRoute_frame _ _).cyclesStarted
    · exact (lowerRoute_frame _ _).cyclesStarted

/-- A hand-back touches the windows and the entries; the engines may be written before or after it. -/
theorem sameTables_handBack_setEngine (s : State) (n : SegmentNumber) (i : Item) (e e' : Engine) (result : ItemResult)
    (kept : List Byte) :
    SameTables ((s.setEngine n e').handBack n i result kept) (((s.setEngine n e).handBack n i result kept).setEngine n e') := by
  have engines : (((s.setEngine n e).handBack n i result kept).setEngine n e').engines
      = ((s.setEngine n e').handBack n i result kept).engines := by
    rw [handBack_engines, State.setEngine_engines, handBack_engines, ← State.setEngine_engines, setEngine_twice]
  have started : (((s.setEngine n e).handBack n i result kept).setEngine n e').cyclesStarted
      = ((s.setEngine n e').handBack n i result kept).cyclesStarted := by
    rw [State.setEngine_cyclesStarted, handBack_cyclesStarted, handBack_cyclesStarted]; rfl
  have settings : (((s.setEngine n e).handBack n i result kept).setEngine n e').settings
      = ((s.setEngine n e').handBack n i result kept).settings := by
    rw [State.setEngine_settings, handBack_settings, handBack_settings]; rfl
  suffices h : ((s.setEngine n e).handBack n i result kept).windows = ((s.setEngine n e').handBack n i result kept).windows ∧
      ((s.setEngine n e).handBack n i result kept).entries = ((s.setEngine n e').handBack n i result kept).entries from
    ⟨h.1, h.2, engines, started, settings⟩
  have lowered (u v : State) (r : Route) (windows : u.windows = v.windows) (entries : u.entries = v.entries) :
      (u.lowerRoute r).windows = (v.lowerRoute r).windows ∧ (u.lowerRoute r).entries = (v.lowerRoute r).entries :=
    ⟨lowerRoute_windows_congr r windows, by rw [(lowerRoute_frame _ _).entries, (lowerRoute_frame _ _).entries, entries]⟩
  cases i with
  | reference slot =>
    cases orphaned : s.entries[slot].orphaned with
    | true =>
      rw [handBack_orphan (s.setEngine n e) n slot result kept orphaned, handBack_orphan (s.setEngine n e') n slot result kept orphaned]
      exact lowered _ _ _ rfl rfl
    | false =>
      rw [handBack_entry (s.setEngine n e) n slot result kept orphaned, handBack_entry (s.setEngine n e') n slot result kept orphaned]
      exact ⟨rfl, rfl⟩
  | posted p =>
    obtain ⟨windows, entries⟩ := lowered (s.setEngine n e) (s.setEngine n e') p.route rfl rfl
    have before := handBack_posted (s.setEngine n e) n p result kept
    have after := handBack_posted (s.setEngine n e') n p result kept
    exact ⟨before.windows.trans (windows.trans after.windows.symm), before.entries.trans (entries.trans after.entries.symm)⟩

/-- What a signal for a cycle, or the expiry of its timer, can do: nothing, the next cycle of the item, or the end of the item. -/
inductive CycleMove (s : State) : State → Prop
  | late : CycleMove s s
  | goesOn (n : SegmentNumber) (kept : List Byte) (cycles : List Cycle) (runs : s.engines[n].current.isSome = true) :
      CycleMove s (s.startCycle n { s.engines[n] with kept := kept, noResponses := 0 } cycles)
  | ends (n : SegmentNumber) (i : Item) (e : Engine) (result : ItemResult) (kept : List Byte) (t : State)
      (held : s.engines[n].inFlight = some i) (move : EngineMove s.cyclesStarted s.engines[n] e)
      (queue : e.queue = s.engines[n].queue) (idle : e.inFlight = none)
      (same : SameTables ((s.setEngine n e).handBack n i result kept) t) : CycleMove s t

theorem answeredCycle_current (s : State) (answered : CycleName) (x : RunningCycle) (h : s.answeredCycle answered = some x) :
    s.engines[answered.segment].current = some x := (Option.filter_eq_some_iff.1 h).1

theorem acknowledge_cycleMove (s : State) (ok : EnginesOk s) (answered : CycleName) (data : BitVec 16) :
    CycleMove s (s.acknowledge answered data) := by
  unfold State.acknowledge
  dsimp only
  cases hc : s.answeredCycle answered with
  | none => exact .late
  | some x =>
    have runs : s.engines[answered.segment].current.isSome = true := by rw [answeredCycle_current s answered x hc]; rfl
    obtain ⟨i, held⟩ := Option.isSome_iff_exists.1 ((ok.engines _).current runs)
    dsimp only
    split
    · refine .ends answered.segment i { s.engines[answered.segment].idle with noResponses := 0 } .ok
        (s.engines[answered.segment].kept ++ x.cycle.taken data) _ held (.ends _ 0 runs (by decide)) rfl rfl ?_
      rw [endItem_eq_handBack _ _ i _ (by rw [engine_after_set, if_pos rfl]; exact held), engine_after_set, if_pos rfl,
        setEngine_twice]
      exact .refl _
    · exact .goesOn _ _ _ runs

/-- A failing cycle ends its item, and its engine is left with a count or FAULTED (R120, R121, R124). -/
theorem failing_cycleMove (s t : State) (n : SegmentNumber) (i : Item) (e : Engine) (result : ItemResult)
    (held : s.engines[n].inFlight = some i) (move : EngineMove s.cyclesStarted s.engines[n] e)
    (queue : e.queue = s.engines[n].queue) (idle : e.inFlight = none) (same : SameTables ((s.endItem n result).setEngine n e) t) :
    CycleMove s t := by
  refine .ends n i e result s.engines[n].kept t held move queue idle ?_
  rw [endItem_eq_handBack s n i result held] at same
  exact (sameTables_handBack_setEngine s n i _ e result _).trans same

theorem timeOut_cycleMove (s : State) (ok : EnginesOk s) (n : SegmentNumber) : CycleMove s (s.timeOut n) := by
  by_cases expires : mayExpire (s.engines[n].current.map RunningCycle.timer) = true
  · obtain ⟨y, hy, last⟩ := (mayExpire_iff _).1 expires
    obtain ⟨x, hx, rfl⟩ := Option.map_eq_some_iff.1 hy
    have runs : s.engines[n].current.isSome = true := by rw [hx]; rfl
    obtain ⟨i, held⟩ := Option.isSome_iff_exists.1 ((ok.engines n).current runs)
    rw [timeOut_of_mayExpire s n x hx last]
    split
    · rw [endItem_count_fault s n i _ _ _ held]
      exact failing_cycleMove s _ n i _ .noResponse held (.faults _ _ .noResponseLimit runs le_rfl (by decide)) rfl rfl
        (sameTables_raise _ _ _)
    · rename_i below
      have limit := (ok.settings.segments n).noResponseLimit.2
      rw [endItem_countNoResponses s n i _ _ held]
      exact failing_cycleMove s _ n i _ .noResponse held (.ends _ _ runs (by omega)) rfl rfl (.refl _)
  · have early : s.timeOut n = s := if_neg expires
    rw [early]; exact .late

theorem errCycle_cycleMove (s : State) (ok : EnginesOk s) (answered : CycleName) : CycleMove s (s.errCycle answered) := by
  unfold State.errCycle
  dsimp only
  cases hc : s.answeredCycle answered with
  | none => exact .late
  | some x =>
    have runs : s.engines[answered.segment].current.isSome = true := by rw [answeredCycle_current s answered x hc]; rfl
    obtain ⟨i, held⟩ := Option.isSome_iff_exists.1 ((ok.engines _).current runs)
    dsimp only
    split
    · rw [endItem_count_fault s _ i _ _ _ held]
      exact failing_cycleMove s _ _ i _ .targetError held (.faults _ 0 .targetError runs (Nat.zero_le _) (by decide)) rfl rfl
        (sameTables_raise _ _ _)
    · rw [endItem_countNoResponses s _ i _ _ held]
      exact failing_cycleMove s _ _ i _ .targetError held (.ends _ 0 runs (by decide)) rfl rfl (.refl _)

/-- The cycle that a start makes current has a number below the next one (log 17). -/
theorem startCycle_numbers (s : State) (n : SegmentNumber) (e : Engine) (cycles : List Cycle) :
    ∀ x ∈ (cycles.head?.map fun c : Cycle =>
        (⟨c, Timer.start Config.cycleUnit s.settings.segments[n].cycleTimeout, s.cyclesStarted⟩ : RunningCycle)),
      x.number < (s.startCycle n e cycles).cyclesStarted := by
  cases cycles with
  | nil => intro x hx; cases hx
  | cons c cs => intro x hx; cases hx; exact Nat.lt_succ_self _

theorem startCycle_engines (s : State) (n : SegmentNumber) (e : Engine) (cycles : List Cycle) :
    (s.startCycle n e cycles).engines
      = (s.setEngine n
          { e with
            current := cycles.head?.map fun c =>
              ⟨c, Timer.start Config.cycleUnit s.settings.segments[n].cycleTimeout, s.cyclesStarted⟩
            remaining := cycles.tail }).engines := by
  rw [startCycle_eq]

theorem startCycle_settings (s : State) (n : SegmentNumber) (e : Engine) (cycles : List Cycle) :
    (s.startCycle n e cycles).settings = s.settings := by
  rw [startCycle_eq]; rfl

theorem startCycle_started (s : State) (n : SegmentNumber) (e : Engine) (cycles : List Cycle) :
    s.cyclesStarted ≤ (s.startCycle n e cycles).cyclesStarted := by
  rw [startCycle_eq]; exact Nat.le_add_right _ _

theorem CycleMove.enginesMove {s t : State} (h : CycleMove s t) : EnginesMove s t := by
  cases h with
  | late => exact enginesMove_of_sameEngines rfl rfl rfl
  | goesOn n kept cycles runs =>
    exact enginesMove_of_set n _ (startCycle_engines s n _ cycles) (startCycle_started s n _ cycles)
      (startCycle_settings s n _ cycles) (.goesOn _ kept _ _ runs (startCycle_numbers s n _ cycles))
  | ends n i e result kept t held move queue idle same =>
    have started : t.cyclesStarted = s.cyclesStarted := same.cyclesStarted.trans (handBack_cyclesStarted _ _ _ _ _)
    exact enginesMove_of_set n e (same.engines.trans (handBack_engines _ _ _ _ _)) started.ge
      (same.settings.trans (handBack_settings _ _ _ _ _)) (started.symm ▸ move)

/-! ### The other effects -/

/-- What decode fixes into a hand-off: its ask, a segment that proceeds (R14), and a route whose window is OPEN (R18). -/
theorem decode_handedOff (s : State) (a : Ask) (x : HandOff) (h : s.decode a = .handedOff x) :
    x.ask = a ∧ s.engines[x.segment].refuses = none
      ∧ (x.route = .defaultRoute ∨ ∃ w, x.route = s.routeOf w ∧ s.windows[w].visible = true) := by
  unfold State.decode at h
  cases hit : s.hit a.space a.address with
  | some w =>
    have holds : s.windows[w].holds a.space a.address = true := by
      have := List.find?_some hit
      exact this
    have visible : s.windows[w].visible = true := by
      simp only [Window.holds, Bool.and_eq_true] at holds
      exact holds.1.1.1
    simp only [hit, State.decodeHit] at h
    split_ifs at h
    split at h
    · cases h
    · rename_i proceeds
      cases h
      exact ⟨rfl, proceeds, .inr ⟨w, rfl, visible⟩⟩
  | none =>
    simp only [hit, State.decodeMiss] at h
    split at h
    · cases h
    · split_ifs at h
      split at h
      · cases h
      · rename_i proceeds
        cases h
        exact ⟨rfl, proceeds, .inl rfl⟩

/-- How a hand-off ends: refused for want of room, a posted item in its list, or an entry with its reference (R72, R74, R97). -/
theorem accept_cases (s : State) (x : HandOff) :
    (s.accept x).1 = s
      ∨ s.engines[x.segment].postedCount < 8 ∧ (s.accept x).1 = (s.enqueue x.segment (.posted x.item)).raiseRoute x.route
      ∨ ∃ slot, s.entries[slot].occupied = false
          ∧ (s.accept x).1 = ((s.setEntry slot x.entry).enqueue x.segment (.reference slot)).raiseRoute x.route := by
  unfold State.accept
  split
  · by_cases room : s.engines[x.segment].postedCount < 8
    · exact .inr (.inl ⟨room, by rw [acceptPosted_room s x room]⟩)
    · exact .inl (by rw [acceptPosted_full s x (Nat.not_lt.1 room)])
  · unfold State.acceptPending
    cases free : s.freeSlot with
    | none => exact .inl rfl
    | some slot =>
      have empty := List.find?_some free
      dsimp only
      split
      · exact .inr (.inr ⟨slot, by rwa [Bool.not_eq_true'] at empty, rfl⟩)
      · exact .inl rfl

theorem enginesMove_enqueue (s t u : State) (n : SegmentNumber) (i : Item) (proceeds : s.engines[n].refuses = none)
    (room : i.isPosted = true → s.engines[n].postedCount < 8) (engines : t.engines = s.engines)
    (started : t.cyclesStarted = s.cyclesStarted) (settings : t.settings = s.settings) (frame : SameButWindows (t.enqueue n i) u) :
    EnginesMove s u := by
  refine enginesMove_of_set n { s.engines[n] with queue := s.engines[n].queue ++ [i] } (frame.engines.trans ?_)
    (frame.cyclesStarted.trans started).ge (frame.settings.trans settings) (.enqueues _ i proceeds room)
  simp only [State.enqueue, State.setEngine_engines, engines]

theorem accept_enginesMove (s : State) (a : Ask) (x : HandOff) (passes : s.decode a = .handedOff x) :
    EnginesMove s (s.accept x).1 := by
  obtain ⟨-, proceeds, -⟩ := decode_handedOff s a x passes
  rcases accept_cases s x with refused | ⟨room, posted⟩ | ⟨slot, -, pending⟩
  · rw [refused]; exact enginesMove_of_sameEngines rfl rfl rfl
  · rw [posted]
    exact enginesMove_enqueue s s _ x.segment _ proceeds (fun _ => room) rfl rfl rfl (raiseRoute_frame _ _)
  · rw [pending]
    exact enginesMove_enqueue s (s.setEntry slot x.entry) _ x.segment _ proceeds (fun h => by cases h) rfl rfl rfl
      (raiseRoute_frame _ _)

theorem enginesMove_withdraw {s t u : State} (gone : Item → Bool) (engines : t.engines = s.engines)
    (started : t.cyclesStarted = s.cyclesStarted) (settings : t.settings = s.settings)
    (frame : SameButWindows (t.withdraw gone) u) : EnginesMove s u := by
  refine ⟨fun n => ?_, ((frame.cyclesStarted.trans (withdraw_cyclesStarted t gone)).trans started).ge, fun ok =>
    ((frame.settings.trans (withdraw_settings t gone)).trans settings).symm ▸ ok⟩
  rw [frame.engines, withdraw_engine, engines]
  exact .withdraws _ _

theorem takeHead_enginesMove (s : State) (n : SegmentNumber) : EnginesMove s (s.takeHead n) := by
  unfold State.takeHead
  dsimp only
  split
  · rename_i ready
    split
    · exact enginesMove_of_sameEngines rfl rfl rfl
    · rename_i i rest head
      generalize (s.job i).divide s.settings.segments[n].width = cycles
      have issued (t : State) : (t.issue i).engines = t.engines ∧ (t.issue i).cyclesStarted = t.cyclesStarted
          ∧ (t.issue i).settings = t.settings := by cases i <;> exact ⟨rfl, rfl, rfl⟩
      obtain ⟨engines, started, settings⟩ := issued (s.startCycle n
        { s.engines[n] with queue := rest, inFlight := some i, kept := [] } cycles)
      refine enginesMove_of_set n _ (engines.trans (startCycle_engines s n _ cycles))
        (started ▸ startCycle_started s n _ cycles) (settings.trans (startCycle_settings s n _ cycles)) ?_
      rw [started]
      exact .takes _ i rest _ _ ready.1 ready.2 head (startCycle_numbers s n _ cycles)
  · exact enginesMove_of_sameEngines rfl rfl rfl

/-- RESET-SEGMENT before the counts fall (R129, R130): the entries of its items have ended and the engine is RESETTING. -/
theorem resetSegment_eq (s : State) (n : SegmentNumber) : ∃ notices,
    s.resetSegment n
      = ((({ s with entries := ((referencedSlots s.engines[n].items).foldl State.resetEntry s).entries } : State).setEngine n
          (.resettingTo s.engines[n].returnAfterReset s.settings.segments[n].resetPulse)).setNotices notices).lowerRoutes
          (s.endedRoutes n) := by
  unfold State.resetSegment
  dsimp only
  rw [raiseLost_eq, foldl_resetEntry_eq]
  exact ⟨_, rfl⟩

theorem resetSegment_enginesMove (s : State) (n : SegmentNumber) : EnginesMove s (s.resetSegment n) := by
  obtain ⟨notices, reset⟩ := resetSegment_eq s n
  rw [reset]
  have frame := lowerRoutes_frame ((({ s with
    entries := ((referencedSlots s.engines[n].items).foldl State.resetEntry s).entries } : State).setEngine n
      (.resettingTo s.engines[n].returnAfterReset s.settings.segments[n].resetPulse)).setNotices notices) (s.endedRoutes n)
  exact enginesMove_of_set n _ frame.engines frame.cyclesStarted.ge frame.settings (.resets _ _ _)

theorem warmReset_enginesMove (s : State) : EnginesMove s s.warmReset := by
  refine ⟨fun n => ?_, le_rfl, fun _ => settingsOk_initial⟩
  have after : s.warmReset.engines[n] = _ := warmReset_engine s n
  rw [after]
  exact .resets _ _ _

theorem abandon_enginesMove (s : State) (w : WindowNumber) : EnginesMove s (s.abandon w) := by
  have frame := lower_frame ((s.setWindow w (s.windows[w].closed .abandoned)).abandonItems (s.routeOf w)) w
    (s.abandonedCount (s.routeOf w))
  rw [abandonItems_eq, foldl_completeEntry_eq] at frame
  unfold State.abandon
  dsimp only
  rw [abandonItems_eq, foldl_completeEntry_eq]
  refine ⟨fun n => ?_, frame.cyclesStarted.ge, fun ok => frame.settings.symm ▸ ok⟩
  rw [frame.engines, State.setNotices_engines, withdraw_engine]
  exact .withdraws _ _

theorem enginesMove_of_effect {s t : State} (h : Effect s t) (ok : EnginesOk s) : EnginesMove s t := by
  cases h with
  | nothing => exact enginesMove_of_sameEngines rfl rfl rfl
  | endsEntry slot done => exact enginesMove_of_frame (t := s.freeEntry slot) rfl rfl rfl (lowerRoute_frame _ _)
  | accepts a x new passes => exact accept_enginesMove s a x passes
  | opens w o free mapping top clear => exact enginesMove_of_sameEngines rfl rfl rfl
  | amends w o allowed mapping top clear => exact enginesMove_of_sameEngines rfl rfl rfl
  | renews w lease allowed => exact enginesMove_of_sameEngines rfl rfl rfl
  | freezes w allowed => exact enginesMove_of_sameEngines rfl rfl rfl
  | closes w reason allowed => exact enginesMove_of_frame (t := s.setWindow w _) rfl rfl rfl (settle_frame _ _)
  | abandons w used thawed => exact abandon_enginesMove s w
  | cancels r => exact enginesMove_withdraw (t := s.cancelEntries r) (s.cancels r) rfl rfl rfl (lowerRoutes_frame _ _)
  | turns n e turn => exact enginesMove_of_set n e rfl le_rfl rfl (.turns _ _ turn)
  | resets n => exact resetSegment_enginesMove s n
  | takesHead n => exact takeHead_enginesMove s n
  | acknowledges answered data => exact (acknowledge_cycleMove s ok answered data).enginesMove
  | timesOut n => exact (timeOut_cycleMove s ok n).enginesMove
  | errs answered => exact (errCycle_cycleMove s ok answered).enginesMove
  | warms => exact warmReset_enginesMove s
  | writes name value v field written =>
    exact ⟨fun n => .same _, le_rfl, write_keeps_settingsOk s.settings v name value field written⟩

end Sys2Proof.Proofs.Engines

/-! SUPPORT. The items of the part and the counts of the windows (R19–R21): the routes that entries and engines hold, as a multiset. -/

namespace Sys2Proof.Proofs.Items

open Sys2Proof Sys2Proof.Machine Sys2Proof.Safety Sys2Proof.Proofs.Counts Sys2Proof.Proofs.Effects

/-! ### The routes held -/

/-- The route of an occupied entry. -/
def entryHolds (e : Entry) : Multiset Route := if e.occupied then {e.route} else 0

/-- The routes of a list's posted items. -/
def postedHold (items : List Item) : Multiset Route := ((postedItems items).map PostedItem.route : List Route)

/-- The routes of all items in the part (R19), whatever their order. -/
def heldRoutes (s : State) : Multiset Route :=
  ∑ slot : Slot, entryHolds s.entries[slot] + ∑ n : SegmentNumber, postedHold s.engines[n].items

theorem coe_filter_map {α β : Type} (l : List α) (p : α → Bool) (f : α → β) :
    (((l.filter p).map f : List β) : Multiset β) = (l.map fun x => if p x then {f x} else 0).sum := by
  induction l with
  | nil => rfl
  | cons x xs ih =>
    rw [List.map_cons, List.sum_cons, ← ih]
    cases h : p x <;> simp [h]

theorem coe_flatMap {α β : Type} (l : List α) (f : α → List β) :
    ((l.flatMap f : List β) : Multiset β) = (l.map fun x => (f x : Multiset β)).sum := by
  induction l with
  | nil => rfl
  | cons x xs ih => rw [List.map_cons, List.sum_cons, ← ih, List.flatMap_cons, Multiset.coe_add]

theorem coe_map_of_nodup {ι β : Type} [Fintype ι] [DecidableEq ι] (l : List ι) (once : l.Nodup) (f : ι → β) :
    ((l.map f : List β) : Multiset β) = ∑ i : ι, if i ∈ l then {f i} else 0 := by
  calc ((l.map f : List β) : Multiset β) = (l.map fun i => ({f i} : Multiset β)).sum := by
        rw [List.map_eq_flatMap, coe_flatMap]; rfl
    _ = ∑ i ∈ l.toFinset, ({f i} : Multiset β) := (List.sum_toFinset _ once).symm
    _ = ∑ i : ι, if i ∈ l then {f i} else 0 := by
        rw [← Finset.sum_filter]
        congr 1
        ext i
        simp

/-- The list of the statements holds the same routes as `heldRoutes`. -/
theorem coe_itemRoutes (s : State) : (itemRoutes s : Multiset Route) = heldRoutes s := by
  unfold itemRoutes entryRoutes postedRoutes heldRoutes
  rw [← Multiset.coe_add, coe_filter_map, coe_flatMap, Fin.sum_univ_def, Fin.sum_univ_def]
  rfl

theorem countsOk_iff (s : State) : CountsOk s ↔
    (∀ w : WindowNumber, s.windows[w].inFlight = (heldRoutes s).countP fun r => routesTo w r = true)
    ∧ ∀ (w : WindowNumber) (g : Byte), Route.window w g ∈ heldRoutes s → s.windows[w].visible = true ∧ s.windows[w].generation = g := by
  rw [← coe_itemRoutes]
  simp only [Multiset.coe_countP, Multiset.mem_coe]
  refine ⟨fun ok => ⟨fun w => (ok.counts w).trans ?_, ok.current⟩, fun ⟨counts, current⟩ => ⟨fun w => (counts w).trans ?_, current⟩⟩
  · simp
  · simp

/-! ### What one write changes -/

theorem sum_update {ι M : Type} [Fintype ι] [DecidableEq ι] [AddCommMonoid M] (f g : ι → M) (i : ι) (h : ∀ j, j ≠ i → f j = g j) :
    ∑ j, f j + g i = ∑ j, g j + f i := by
  rw [← Finset.add_sum_erase Finset.univ f (Finset.mem_univ i), ← Finset.add_sum_erase Finset.univ g (Finset.mem_univ i),
    Finset.sum_congr rfl fun j hj => h j (Finset.ne_of_mem_erase hj)]
  abel

/-- One entry written: its route leaves, the new one comes. -/
theorem heldRoutes_of_entry {s t : State} (slot : Slot) (entries : ∀ b : Slot, b ≠ slot → t.entries[b] = s.entries[b])
    (engines : ∀ n : SegmentNumber, postedHold t.engines[n].items = postedHold s.engines[n].items) :
    heldRoutes t + entryHolds s.entries[slot] = heldRoutes s + entryHolds t.entries[slot] := by
  have sums := sum_update (fun b : Slot => entryHolds t.entries[b]) (fun b : Slot => entryHolds s.entries[b]) slot
    fun b other => congrArg entryHolds (entries b other)
  unfold heldRoutes
  rw [Finset.sum_congr rfl fun n _ => engines n, add_right_comm, sums]
  abel

/-- One engine written: the routes of its posted items leave, the new ones come. -/
theorem heldRoutes_of_engine {s t : State} (n : SegmentNumber)
    (entries : ∀ b : Slot, entryHolds t.entries[b] = entryHolds s.entries[b])
    (engines : ∀ m : SegmentNumber, m ≠ n → t.engines[m].items = s.engines[m].items) :
    heldRoutes t + postedHold s.engines[n].items = heldRoutes s + postedHold t.engines[n].items := by
  have sums := sum_update (fun m : SegmentNumber => postedHold t.engines[m].items)
    (fun m : SegmentNumber => postedHold s.engines[m].items) n fun m other => congrArg postedHold (engines m other)
  unfold heldRoutes
  rw [Finset.sum_congr rfl fun b _ => entries b, add_assoc, sums]
  abel

theorem heldRoutes_congr {s t : State} (entries : ∀ b : Slot, entryHolds t.entries[b] = entryHolds s.entries[b])
    (engines : ∀ n : SegmentNumber, postedHold t.engines[n].items = postedHold s.engines[n].items) :
    heldRoutes t = heldRoutes s := by
  unfold heldRoutes
  rw [Finset.sum_congr rfl fun b _ => entries b, Finset.sum_congr rfl fun n _ => engines n]

/-! ### Lists of items -/

theorem postedHold_append (l k : List Item) : postedHold (l ++ k) = postedHold l + postedHold k := by
  simp [postedHold, postedItems, List.filterMap_append, Multiset.coe_add]

@[simp] theorem postedHold_posted (p : PostedItem) : postedHold [.posted p] = {p.route} := rfl

@[simp] theorem postedHold_reference (slot : Slot) : postedHold [.reference slot] = 0 := rfl

theorem entryHolds_occupied (e : Entry) (h : e.state ≠ .free) : entryHolds e = {e.route} := by
  simp [entryHolds, Entry.occupied, h]

theorem entryHolds_free (e : Entry) (h : e.state = .free) : entryHolds e = 0 := by
  simp [entryHolds, Entry.occupied, h]

/-! ### The counts -/

/-- In a part whose counts agree, the items that name a window are those with its present route. -/
theorem countP_routesTo (s : State) (ok : CountsOk s) (gone : Multiset Route) (h : gone ≤ heldRoutes s) (w : WindowNumber) :
    gone.countP (fun r => routesTo w r = true) = gone.count (s.routeOf w) := by
  rw [Multiset.count]
  refine Multiset.countP_congr rfl fun r hr => ?_
  have current := ((countsOk_iff s).1 ok).2
  cases r with
  | defaultRoute => simp [routesTo, State.routeOf]
  | window v g =>
    have held := current v g (Multiset.mem_of_le h hr)
    simp only [routesTo, State.routeOf, decide_eq_true_eq, Route.window.injEq, eq_iff_iff]
    constructor
    · rintro rfl; exact ⟨rfl, held.2⟩
    · rintro ⟨rfl, -⟩; rfl

/-- Items end: each count falls by those that named its window, and a window that stays in flight stays in use (R21, R44). -/
theorem countsOk_of_gone {s t : State} (ok : CountsOk s) (gone : Multiset Route) (held : heldRoutes s = gone + heldRoutes t)
    (inFlight : ∀ w : WindowNumber, t.windows[w].inFlight = s.windows[w].inFlight - gone.count (s.routeOf w))
    (used : ∀ w : WindowNumber, s.windows[w].visible = true → t.windows[w].inFlight ≠ 0 →
      t.windows[w].visible = true ∧ t.windows[w].generation = s.windows[w].generation) : CountsOk t := by
  obtain ⟨counts, current⟩ := (countsOk_iff s).1 ok
  have counts' (w : WindowNumber) : t.windows[w].inFlight = (heldRoutes t).countP fun r => routesTo w r = true := by
    have all := counts w
    rw [held, Multiset.countP_add, countP_routesTo s ok gone (held ▸ Multiset.le_add_right _ _)] at all
    rw [inFlight w]
    omega
  refine (countsOk_iff t).2 ⟨counts', fun w g named => ?_⟩
  obtain ⟨visible, generation⟩ := current w g (held ▸ Multiset.mem_add.2 (.inr named))
  have some : t.windows[w].inFlight ≠ 0 := by
    rw [counts' w]
    exact (Multiset.countP_pos_of_mem named (by simp [routesTo])).ne'
  obtain ⟨visible', generation'⟩ := used w visible some
  exact ⟨visible', generation'.trans generation⟩

theorem fallen_inFlight (w : Window) (k : Nat) : (fallen w k).inFlight = w.inFlight - k := by
  unfold fallen
  split
  · rename_i zero; rw [zero]; rfl
  · rfl

theorem fallen_generation (w : Window) (k : Nat) : (fallen w k).generation = w.generation := by
  unfold fallen; split <;> rfl

/-- A window that keeps an item in flight is not retired (R44). -/
theorem lowered_visible (w : Window) (k : Nat) (visible : w.visible = true) (some : (lowered w k).inFlight ≠ 0) :
    (lowered w k).visible = true := by
  have stays : ¬ (w.state = .closing ∧ w.inFlight - k = 0) := fun h => some h.2
  simp only [Window.visible, lowered, if_neg stays] at visible ⊢
  exact visible

theorem fallen_visible (w : Window) (k : Nat) (visible : w.visible = true) (some : (fallen w k).inFlight ≠ 0) :
    (fallen w k).visible = true := by
  unfold fallen at some ⊢
  split at some
  · rename_i zero; rw [if_pos zero]; exact visible
  · rename_i more; rw [if_neg more]; exact lowered_visible w k visible some

/-- Items end, and the counts fall as `lowerRoutes` has them (R21, R88, R130). -/
theorem countsOk_of_fallen {s t : State} (ok : CountsOk s) (gone : List Route) (held : heldRoutes s = gone + heldRoutes t)
    (windows : ∀ w : WindowNumber, t.windows[w] = fallen s.windows[w] (gone.count (s.routeOf w))) : CountsOk t := by
  refine countsOk_of_gone ok gone held (fun w => ?_) fun w visible some => ?_
  · rw [windows w, fallen_inFlight, Multiset.coe_count]
  · rw [windows w] at some ⊢
    exact ⟨fallen_visible _ _ visible some, fallen_generation _ _⟩

/-- No item ends, and every window in use stays so with its count. -/
theorem countsOk_of_same {s t : State} (ok : CountsOk s) (held : heldRoutes t = heldRoutes s)
    (windows : ∀ w : WindowNumber, t.windows[w].inFlight = s.windows[w].inFlight
      ∧ (s.windows[w].visible = true → t.windows[w].inFlight ≠ 0 →
        t.windows[w].visible = true ∧ t.windows[w].generation = s.windows[w].generation)) : CountsOk t :=
  countsOk_of_gone ok 0 (by rw [held, zero_add]) (fun w => by rw [(windows w).1]; simp) fun w => (windows w).2

/-- An item is accepted through a window, or by the default route (R20). -/
theorem countsOk_of_accepted {s t : State} (ok : CountsOk s) (r : Route) (held : heldRoutes t = {r} + heldRoutes s)
    (windows : t.windows = (s.raiseRoute r).windows)
    (route : r = .defaultRoute ∨ ∃ w, r = s.routeOf w ∧ s.windows[w].visible = true) : CountsOk t := by
  obtain ⟨counts, current⟩ := (countsOk_iff s).1 ok
  rw [countsOk_iff, held, windows]
  rcases route with rfl | ⟨v, rfl, visible⟩
  · refine ⟨fun w => ?_, fun w g named => ?_⟩
    · have elsewhere : ({Route.defaultRoute} : Multiset Route).countP (fun r => routesTo w r = true) = 0 :=
        Multiset.countP_eq_zero.2 (by simp [routesTo])
      rw [Multiset.countP_add, elsewhere, zero_add]
      exact counts w
    · have named : Route.window w g ∈ heldRoutes s := by simpa using named
      exact current w g named
  · refine ⟨fun w => ?_, fun w g named => ?_⟩
    · rw [Multiset.countP_add, ← counts w, raiseRoute_window, ← Multiset.cons_zero, Multiset.countP_cons, Multiset.countP_zero]
      by_cases here : w = v
      · subst here
        simp [routesTo, State.routeOf, Nat.add_comm]
      · have other : ¬ v = w := fun e => here e.symm
        simp [-Fin.getElem_fin, routesTo, State.routeOf, here, other]
    · have before : s.windows[w].visible = true ∧ s.windows[w].generation = g := by
        rcases Multiset.mem_add.1 named with new | old
        · obtain ⟨rfl, rfl⟩ := Route.window.inj (Multiset.mem_singleton.1 new)
          exact ⟨visible, rfl⟩
        · exact current w g old
      rw [raiseRoute_window]
      by_cases here : w = v
      · rw [if_pos here, ← here]; exact before
      · rw [if_neg here]; exact before

end Sys2Proof.Proofs.Items

/-! SUPPORT. Entries and references (R69, R70, R74, R98): how one entry can change, and when entries and work queues still agree. -/

namespace Sys2Proof.Proofs.References

open Sys2Proof Sys2Proof.Machine Sys2Proof.Safety

/-! ### One entry -/

/-- How one entry can change, a new one in a FREE slot aside. -/
inductive EntryMove : Entry → Entry → Prop
  | same (e : Entry) : EntryMove e e
  | freed (e : Entry) : EntryMove e e.freed
  | completed (e : Entry) (o : EntryOutcome) (d : Option (List Byte)) (interval : Nat) (used : e.state ≠ .free)
      (awaited : e.orphaned = false) (data : d.isSome = true ↔ e.kind = .read ∧ o = .ok) : EntryMove e (e.completed o d interval)
  | issued (e : Entry) (queued : e.state = .queued) : EntryMove e { e with state := .issued }
  | orphaned (e : Entry) (issued : e.state = .issued) : EntryMove e { e with orphaned := true }
  | ticks (e : Entry) : EntryMove e e.tick

theorem entryOk_freed (e : Entry) : EntryOk e.freed := by
  constructor <;> simp [Entry.freed]

theorem entryOk_cold : EntryOk Entry.cold := by
  constructor <;> simp [Entry.cold]

theorem EntryMove.entryOk {e e' : Entry} (h : EntryMove e e') (ok : EntryOk e) : EntryOk e' := by
  cases h with
  | same => exact ok
  | freed => exact entryOk_freed e
  | completed o d interval used awaited data =>
    refine ⟨by simp [Entry.completed], by simp [Entry.completed], ?_, fun orphaned => ?_⟩
    · simpa [Entry.completed] using data
    · exact absurd (awaited.symm.trans orphaned) (by decide)
  | issued queued =>
    have unfinished : ¬ e.state = .complete := by rw [queued]; decide
    exact ⟨iff_of_false (fun h => unfinished (ok.outcome.1 h)) (by simp), iff_of_false (fun h => unfinished (ok.discard.1 h)) (by simp),
      iff_of_false (fun h => unfinished (ok.readData.1 h).1) (by simp), fun _ => rfl⟩
  | orphaned issued => exact ⟨ok.outcome, ok.discard, ok.readData, fun _ => issued⟩
  | ticks => exact ⟨ok.outcome, by simpa [Entry.tick] using ok.discard, ok.readData, ok.orphaned⟩

/-- An entry that can be matched after a move could be matched before it, by the same asks. -/
theorem EntryMove.signature {e e' : Entry} (h : EntryMove e e') (occupied : e'.occupied = true) (awaited : e'.orphaned = false) :
    (e.occupied = true ∧ e.orphaned = false) ∧ (∀ d, sameAsk e' d = sameAsk e d) ∧ ∀ d, sameAsk d e' = sameAsk d e := by
  cases h with
  | same => exact ⟨⟨occupied, awaited⟩, fun _ => rfl, fun _ => rfl⟩
  | freed => simp [Entry.occupied, Entry.freed] at occupied
  | completed o d interval used before => exact ⟨⟨decide_eq_true used, before⟩, fun _ => rfl, fun _ => rfl⟩
  | issued queued => exact ⟨⟨decide_eq_true (by rw [queued]; decide), awaited⟩, fun _ => rfl, fun _ => rfl⟩
  | orphaned => cases awaited
  | ticks => exact ⟨⟨occupied, awaited⟩, fun _ => rfl, fun _ => rfl⟩

theorem signaturesDistinct_of_moves {s t : State} (h : ∀ b : Slot, EntryMove s.entries[b] t.entries[b])
    (ok : SignaturesDistinct s) : SignaturesDistinct t := by
  intro a b other occupiedA occupiedB awaitedA awaitedB
  obtain ⟨⟨occA, awA⟩, left, -⟩ := (h a).signature occupiedA awaitedA
  obtain ⟨⟨occB, awB⟩, -, right⟩ := (h b).signature occupiedB awaitedB
  rw [left, right]
  exact ok a b other occA occB awA awB

theorem sameAsk_comm (d e : Entry) : sameAsk d e = sameAsk e d := by
  rw [Bool.eq_iff_iff]
  simp only [sameAsk, Bool.and_eq_true, Bool.or_eq_true, decide_eq_true_eq]
  constructor
  · rintro ⟨⟨h1, h2, h3, h4, h5⟩, h6⟩
    exact ⟨⟨h1.symm, h2.symm, h3.symm, h4.symm, h5.symm⟩, h6.imp (h2 ▸ ·) Eq.symm⟩
  · rintro ⟨⟨h1, h2, h3, h4, h5⟩, h6⟩
    exact ⟨⟨h1.symm, h2.symm, h3.symm, h4.symm, h5.symm⟩, h6.imp (h2 ▸ ·) Eq.symm⟩

/-- An entry that can be matched and has the signature of a hand-off's entry is matched by its ask (R75). -/
theorem isRepeatedBy_of_sameAsk (e : Entry) (x : HandOff) (occupied : e.occupied = true) (awaited : e.orphaned = false)
    (h : sameAsk e x.entry = true) : e.isRepeatedBy x.ask = true := by
  simp only [sameAsk, Bool.and_eq_true, Bool.or_eq_true, decide_eq_true_eq] at h
  obtain ⟨⟨requester, kind, space, address, count⟩, data⟩ := h
  rw [isRepeatedBy_iff]
  refine ⟨of_decide_eq_true occupied, awaited, requester, kind, space, address, count, fun write => ?_⟩
  exact data.resolve_left fun read => absurd (read.symm.trans (kind.trans write)) (by decide)

/-- A new entry has a signature of its own (R74). -/
theorem signaturesDistinct_of_new {s t : State} (slot : Slot) (x : HandOff) (ok : SignaturesDistinct s)
    (new : s.matching x.ask = none) (written : t.entries[slot] = x.entry)
    (others : ∀ b : Slot, b ≠ slot → t.entries[b] = s.entries[b]) : SignaturesDistinct t := by
  have unmatched (b : Slot) (occupied : s.entries[b].occupied = true) (awaited : s.entries[b].orphaned = false) :
      sameAsk s.entries[b] x.entry = false := by
    rw [← Bool.not_eq_true]
    intro same
    rw [State.matching, List.find?_eq_none] at new
    exact new b (List.mem_finRange b) (isRepeatedBy_of_sameAsk _ x occupied awaited same)
  intro a b other occA occB awA awB
  by_cases atA : a = slot
  · have notB : b ≠ slot := fun e => other (atA.trans e.symm)
    rw [others b notB] at occB awB ⊢
    rw [atA, written, sameAsk_comm]
    exact unmatched b occB awB
  · rw [others a atA] at occA awA ⊢
    by_cases atB : b = slot
    · rw [atB, written]
      exact unmatched a occA awA
    · rw [others b atB] at occB awB ⊢
      exact ok a b other occA occB awA awB

/-! ### References -/

/-- `ReferencesOk` read both ways: what a list refers to is QUEUED there, and what is QUEUED is referred to; and so for ISSUED. -/
theorem referencesOk_iff (s : State) : ReferencesOk s ↔
    (∀ n : SegmentNumber, (referencedSlots s.engines[n].queue).Nodup)
    ∧ (∀ (n : SegmentNumber) (b : Slot), b ∈ referencedSlots s.engines[n].queue ↔ s.entries[b].state = .queued ∧ s.entries[b].segment = n)
    ∧ ∀ (n : SegmentNumber) (b : Slot), s.engines[n].inFlight = some (.reference b) ↔
        s.entries[b].state = .issued ∧ s.entries[b].segment = n := by
  constructor
  · intro ok
    refine ⟨ok.once, fun n b => ⟨ok.queued n b, ?_⟩, fun n b => ⟨ok.issued n b, ?_⟩⟩
    · rintro ⟨queued, rfl⟩; exact ok.hasReference b queued
    · rintro ⟨issued, rfl⟩; exact ok.hasEngine b issued
  · rintro ⟨once, queued, issued⟩
    exact ⟨once, fun n b => (queued n b).1, fun n b => (issued n b).1, fun b h => (queued _ b).2 ⟨h, rfl⟩,
      fun b h => (issued _ b).2 ⟨h, rfl⟩⟩

/-- Some slots leave the work queues: their entries are QUEUED and ISSUED no more, and nothing refers to them; all else stays. -/
structure SlotsLeave (s t : State) (gone : Slot → Prop) : Prop where
  left : ∀ b : Slot, gone b → t.entries[b].state ≠ .queued ∧ t.entries[b].state ≠ .issued
  stayed : ∀ b : Slot, ¬ gone b → t.entries[b].state = s.entries[b].state ∧ t.entries[b].segment = s.entries[b].segment
  lists : ∀ n : SegmentNumber, (referencedSlots t.engines[n].queue).Sublist (referencedSlots s.engines[n].queue)
  queued : ∀ (n : SegmentNumber) (b : Slot), b ∈ referencedSlots t.engines[n].queue ↔
    b ∈ referencedSlots s.engines[n].queue ∧ ¬ gone b
  inFlight : ∀ (n : SegmentNumber) (b : Slot), t.engines[n].inFlight = some (.reference b) ↔
    s.engines[n].inFlight = some (.reference b) ∧ ¬ gone b

theorem SlotsLeave.referencesOk {s t : State} {gone : Slot → Prop} (h : SlotsLeave s t gone) (ok : ReferencesOk s) :
    ReferencesOk t := by
  obtain ⟨once, queued, issued⟩ := (referencesOk_iff s).1 ok
  refine (referencesOk_iff t).2 ⟨fun n => (once n).sublist (h.lists n), fun n b => ?_, fun n b => ?_⟩
  · rw [h.queued, queued]
    by_cases leaves : gone b
    · exact iff_of_false (fun both => both.2 leaves) fun both => (h.left b leaves).1 both.1
    · rw [(h.stayed b leaves).1, (h.stayed b leaves).2]
      exact and_iff_left leaves
  · rw [h.inFlight, issued]
    by_cases leaves : gone b
    · exact iff_of_false (fun both => both.2 leaves) fun both => (h.left b leaves).2 both.1
    · rw [(h.stayed b leaves).1, (h.stayed b leaves).2]
      exact and_iff_left leaves

/-- Entries keep their states and segments, and engines their items. -/
theorem referencesOk_congr {s t : State} (ok : ReferencesOk s)
    (entries : ∀ b : Slot, t.entries[b].state = s.entries[b].state ∧ t.entries[b].segment = s.entries[b].segment)
    (engines : ∀ n : SegmentNumber, referencedSlots t.engines[n].queue = referencedSlots s.engines[n].queue
      ∧ t.engines[n].inFlight = s.engines[n].inFlight) : ReferencesOk t :=
  SlotsLeave.referencesOk (gone := fun _ => False)
    ⟨fun _ h => h.elim, fun b _ => entries b, fun n => by rw [(engines n).1], fun n b => by rw [(engines n).1]; simp,
      fun n b => by rw [(engines n).2]; simp⟩ ok

theorem mem_referencedSlots (l : List Item) (b : Slot) : b ∈ referencedSlots l ↔ .reference b ∈ l := by
  induction l with
  | nil => simp [referencedSlots]
  | cons i l ih => cases i <;> simp_all [referencedSlots]

theorem mem_items_reference (e : Engine) (b : Slot) :
    b ∈ referencedSlots e.items ↔ e.inFlight = some (.reference b) ∨ b ∈ referencedSlots e.queue := by
  rw [mem_referencedSlots, mem_referencedSlots, Engine.items, List.mem_append, Option.mem_toList]

theorem mem_referencedSlots_withdrawn (l : List Item) (gone : Item → Bool) (b : Slot) :
    b ∈ referencedSlots (l.filter fun i => !gone i) ↔ b ∈ referencedSlots l ∧ gone (.reference b) = false := by
  rw [mem_referencedSlots, mem_referencedSlots, List.mem_filter, Bool.not_eq_true']

/-- A slot that an engine holds is QUEUED or ISSUED on its segment (R98, R100). -/
theorem held_slot (s : State) (ok : ReferencesOk s) (n : SegmentNumber) (b : Slot) :
    b ∈ referencedSlots s.engines[n].items ↔
      (s.entries[b].state = .queued ∨ s.entries[b].state = .issued) ∧ s.entries[b].segment = n := by
  obtain ⟨-, queued, issued⟩ := (referencesOk_iff s).1 ok
  rw [mem_items_reference, queued, issued]
  tauto

/-! ### A new reference, and the head of a list -/

/-- A new entry in a FREE slot joins the list of its segment (R74, R98). -/
theorem referencesOk_of_new {s t : State} (ok : ReferencesOk s) (slot : Slot) (n : SegmentNumber)
    (free : s.entries[slot].state = .free) (written : t.entries[slot].state = .queued ∧ t.entries[slot].segment = n)
    (others : ∀ b : Slot, b ≠ slot → t.entries[b] = s.entries[b])
    (queue : ∀ m : SegmentNumber, t.engines[m].queue = if m = n then s.engines[m].queue ++ [.reference slot] else s.engines[m].queue)
    (inFlight : ∀ m : SegmentNumber, t.engines[m].inFlight = s.engines[m].inFlight) : ReferencesOk t := by
  obtain ⟨once, queued, issued⟩ := (referencesOk_iff s).1 ok
  have absent (m : SegmentNumber) : slot ∉ referencedSlots s.engines[m].queue := fun h =>
    absurd (free.symm.trans ((queued m slot).1 h).1) (by decide)
  have lists (m : SegmentNumber) : referencedSlots t.engines[m].queue
      = if m = n then referencedSlots s.engines[m].queue ++ [slot] else referencedSlots s.engines[m].queue := by
    rw [queue m]
    split
    · simp [referencedSlots, List.filterMap_append]
    · rfl
  refine (referencesOk_iff t).2 ⟨fun m => ?_, fun m b => ?_, fun m b => ?_⟩
  · rw [lists m]
    split
    · exact List.nodup_append.2 ⟨once m, List.nodup_singleton _, fun a ha b hb e => absent m (List.mem_singleton.1 hb ▸ e ▸ ha)⟩
    · exact once m
  · rw [lists m]
    by_cases same : b = slot
    · subst same
      rw [written.1, written.2]
      by_cases here : m = n
      · simp [here]
      · rw [if_neg here]
        exact iff_of_false (absent m) fun h => here h.2.symm
    · rw [others b same, ← queued m b]
      split
      · simp [same]
      · rfl
  · rw [inFlight m, issued]
    by_cases same : b = slot
    · subst same
      rw [written.1, free]; simp
    · rw [others b same]

/-- The head of a list goes in flight, and its entry, where it has one, is ISSUED (R79, R100). -/
theorem referencesOk_of_taken {s t : State} (ok : ReferencesOk s) (n : SegmentNumber) (i : Item) (rest : List Item)
    (head : s.engines[n].queue = i :: rest) (idle : s.engines[n].inFlight = none)
    (queue : ∀ m : SegmentNumber, t.engines[m].queue = if m = n then rest else s.engines[m].queue)
    (inFlight : ∀ m : SegmentNumber, t.engines[m].inFlight = if m = n then some i else s.engines[m].inFlight)
    (entries : ∀ b : Slot, t.entries[b].segment = s.entries[b].segment
      ∧ t.entries[b].state = if i = .reference b then .issued else s.entries[b].state) : ReferencesOk t := by
  obtain ⟨once, queued, issued⟩ := (referencesOk_iff s).1 ok
  have once_n : (referencedSlots (i :: rest)).Nodup := head ▸ once n
  have inRest (b : Slot) : b ∈ referencedSlots rest ↔ b ∈ referencedSlots (i :: rest) ∧ i ≠ .reference b := by
    cases i with
    | posted p => simp [referencedSlots]
    | reference c =>
      have fresh : c ∉ referencedSlots rest := (List.nodup_cons.1 once_n).1
      constructor
      · intro h
        exact ⟨List.mem_cons_of_mem c h, fun e => fresh (Item.reference.inj e ▸ h)⟩
      · rintro ⟨h, other⟩
        exact (List.mem_cons.1 h).resolve_left fun e => other (e ▸ rfl)
  have isHead (b : Slot) (h : i = .reference b) : s.entries[b].state = .queued ∧ s.entries[b].segment = n :=
    (queued n b).1 (by rw [head, mem_referencedSlots, h]; exact List.mem_cons_self)
  refine (referencesOk_iff t).2 ⟨fun m => ?_, fun m b => ?_, fun m b => ?_⟩
  · rw [queue m]
    split
    · exact once_n.sublist ((List.sublist_cons_self i rest).filterMap _)
    · exact once m
  · rw [queue m, (entries b).1, (entries b).2]
    by_cases taken : i = .reference b
    · rw [if_pos taken]
      refine iff_of_false ?_ (by simp)
      split
      · exact fun h => ((inRest b).1 h).2 taken
      · rename_i other
        exact fun h => other (((queued m b).1 h).2.symm.trans (isHead b taken).2)
    · rw [if_neg taken, ← queued m b]
      by_cases here : m = n
      · subst here
        rw [if_pos rfl, inRest, head]
        exact and_iff_left taken
      · rw [if_neg here]
  · rw [inFlight m, (entries b).1, (entries b).2]
    by_cases taken : i = .reference b
    · rw [if_pos taken, (isHead b taken).2]
      by_cases here : m = n
      · subst here
        simp [taken]
      · rw [if_neg here, issued, (isHead b taken).1]
        exact iff_of_false (fun h => absurd h.1 (by decide)) fun h => here h.2.symm
    · rw [if_neg taken, ← issued m b]
      by_cases here : m = n
      · subst here
        simp [-Fin.getElem_fin, taken, idle]
      · rw [if_neg here]

end Sys2Proof.Proofs.References

/-! SUPPORT. The Pending Table, the work queues and the counts through every step (R19, R70, R71, R74, R98), effect by effect. -/

namespace Sys2Proof.Proofs.Tables

open Sys2Proof Sys2Proof.Machine Sys2Proof.Safety Sys2Proof.Proofs.Counts Sys2Proof.Proofs.Effects Sys2Proof.Proofs.Scope
open Sys2Proof.Proofs.WindowTable Sys2Proof.Proofs.Windows Sys2Proof.Proofs.Engines Sys2Proof.Proofs.Items
open Sys2Proof.Proofs.References

/-- The part of `TablesOk` that speaks of items. -/
structure ItemsOk (s : State) : Prop where
  counts : CountsOk s
  entries : ∀ slot : Slot, EntryOk s.entries[slot]
  references : ReferencesOk s
  signatures : SignaturesDistinct s

theorem itemsOk_of_moves {s t : State} (ok : ItemsOk s) (entries : ∀ b : Slot, EntryMove s.entries[b] t.entries[b])
    (references : ReferencesOk t) (counts : CountsOk t) : ItemsOk t :=
  ⟨counts, fun b => (entries b).entryOk (ok.entries b), references, signaturesDistinct_of_moves entries ok.signatures⟩

/-- No entry changes and no item moves: what is left to see is that every window in use stays so with its count. -/
theorem itemsOk_of_windows {s t : State} (ok : ItemsOk s) (entries : t.entries = s.entries)
    (engines : ∀ n : SegmentNumber, t.engines[n].queue = s.engines[n].queue ∧ t.engines[n].inFlight = s.engines[n].inFlight)
    (windows : ∀ w : WindowNumber, t.windows[w].inFlight = s.windows[w].inFlight
      ∧ (s.windows[w].visible = true → t.windows[w].inFlight ≠ 0 →
        t.windows[w].visible = true ∧ t.windows[w].generation = s.windows[w].generation)) : ItemsOk t := by
  have held : heldRoutes t = heldRoutes s :=
    heldRoutes_congr (fun b => by rw [entries]) fun n => by rw [Engine.items, Engine.items, (engines n).1, (engines n).2]
  exact itemsOk_of_moves ok (fun b => by rw [entries]; exact .same _)
    (referencesOk_congr ok.references (fun b => by rw [entries]; exact ⟨rfl, rfl⟩) fun n => ⟨by rw [(engines n).1], (engines n).2⟩)
    (countsOk_of_same ok.counts held windows)

theorem itemsOk_of_sameWindows {s t : State} (ok : ItemsOk s) (windows : t.windows = s.windows) (entries : t.entries = s.entries)
    (engines : ∀ n : SegmentNumber, t.engines[n].queue = s.engines[n].queue ∧ t.engines[n].inFlight = s.engines[n].inFlight) :
    ItemsOk t :=
  itemsOk_of_windows ok entries engines fun w => by rw [windows]; exact ⟨rfl, fun visible _ => ⟨visible, rfl⟩⟩

theorem itemsOk_of_sameTables (s t : State) (same : SameTables s t) (ok : ItemsOk s) : ItemsOk t :=
  itemsOk_of_sameWindows ok same.windows same.entries fun n => by rw [same.engines]; exact ⟨rfl, rfl⟩

/-- One window written, with no item ended. -/
theorem itemsOk_setWindow {s : State} (ok : ItemsOk s) (w : WindowNumber) (r : Window)
    (inFlight : r.inFlight = s.windows[w].inFlight)
    (used : s.windows[w].visible = true → r.inFlight ≠ 0 → r.visible = true ∧ r.generation = s.windows[w].generation) :
    ItemsOk (s.setWindow w r) := by
  refine itemsOk_of_windows ok rfl (fun n => ⟨rfl, rfl⟩) fun v => ?_
  rw [window_after_set]
  by_cases here : v = w
  · rw [if_pos here, here]; exact ⟨inFlight, used⟩
  · rw [if_neg here]; exact ⟨rfl, fun visible _ => ⟨visible, rfl⟩⟩

/-! ### Windows opened and changed -/

/-- A FREE window has no item in flight (R19, R71). -/
theorem inFlight_of_free (s : State) (ok : CountsOk s) (w : WindowNumber) (free : s.windows[w].visible = false) :
    s.windows[w].inFlight = 0 := by
  obtain ⟨counts, current⟩ := (countsOk_iff s).1 ok
  rw [counts w, Multiset.countP_eq_zero]
  intro r held
  cases r with
  | defaultRoute => simp [routesTo]
  | window v g =>
    simp only [routesTo, decide_eq_true_eq]
    rintro rfl
    exact absurd (free.symm.trans (current v g held).1) (by decide)

theorem itemsOk_open {s : State} (ok : ItemsOk s) (w : WindowNumber) (o : OpenOperands) (free : s.windows[w].visible = false) :
    ItemsOk (s.setWindow w (o.record s.windows[w])) :=
  itemsOk_setWindow ok w _ (inFlight_of_free s ok.counts w free).symm fun _ some => absurd rfl some

theorem itemsOk_closed {s : State} (ok : ItemsOk s) (w : WindowNumber) (reason : RetireReason) :
    ItemsOk (s.setWindow w (s.windows[w].closed reason)) :=
  itemsOk_setWindow ok w _ rfl fun _ _ => ⟨rfl, rfl⟩

theorem itemsOk_settle {s : State} (ok : ItemsOk s) (w : WindowNumber) : ItemsOk (s.settle w) := by
  have frame := settle_frame s w
  refine itemsOk_of_windows ok frame.entries (fun n => by rw [frame.engines]; exact ⟨rfl, rfl⟩) fun v => ?_
  rw [settle_eq_lower, lower_window]
  by_cases here : v = w
  · rw [if_pos here, here]; exact ⟨rfl, fun visible some => ⟨lowered_visible _ 0 visible some, rfl⟩⟩
  · rw [if_neg here]; exact ⟨rfl, fun visible _ => ⟨visible, rfl⟩⟩

/-! ### The end of one entry -/

theorem freed_settled (e : Entry) : e.freed.state ≠ .queued ∧ e.freed.state ≠ .issued := by
  simp [Entry.freed]

theorem completed_settled (e : Entry) (o : EntryOutcome) (d : Option (List Byte)) (interval : Nat) :
    (e.completed o d interval).state ≠ .queued ∧ (e.completed o d interval).state ≠ .issued := by
  simp [Entry.completed]

theorem entryHolds_freed (e : Entry) : entryHolds e.freed = 0 := entryHolds_free _ rfl

theorem entryHolds_completed (e : Entry) (o : EntryOutcome) (d : Option (List Byte)) (interval : Nat) (used : e.state ≠ .free) :
    entryHolds (e.completed o d interval) = entryHolds e := by
  rw [entryHolds_occupied e used, entryHolds_occupied _ (by simp [Entry.completed])]
  rfl

/-- A COMPLETE entry ends (R77, R85): nothing refers to it. -/
theorem itemsOk_endEntry {s : State} (ok : ItemsOk s) (slot : Slot) (complete : s.entries[slot].state = .complete) :
    ItemsOk (s.endEntry slot) := by
  have frame := lowerRoute_frame (s.freeEntry slot) s.entries[slot].route
  have engines : (s.endEntry slot).engines = s.engines := frame.engines
  have others (b : Slot) (other : b ≠ slot) : (s.endEntry slot).entries[b] = s.entries[b] := by
    rw [endEntry_entry, if_neg other]
  have ended : (s.endEntry slot).entries[slot] = s.entries[slot].freed := by rw [endEntry_entry, if_pos rfl]
  refine itemsOk_of_moves ok (fun b => ?_) ?_ ?_
  · rw [endEntry_entry]
    by_cases here : b = slot
    · rw [if_pos here, here]; exact .freed _
    · rw [if_neg here]; exact .same _
  · refine SlotsLeave.referencesOk (s := s) (gone := (· = slot))
      ⟨?_, fun b other => by rw [others b other]; exact ⟨rfl, rfl⟩, fun n => by rw [engines], fun n b => ?_,
      fun n b => ?_⟩ ok.references
    · rintro b rfl; rw [ended]; exact freed_settled _
    · rw [engines, iff_self_and]
      rintro held rfl
      exact absurd (complete.symm.trans (ok.references.queued n b held).1) (by decide)
    · rw [engines, iff_self_and]
      rintro held rfl
      exact absurd (complete.symm.trans (ok.references.issued n b held).1) (by decide)
  · have held := heldRoutes_of_entry slot others (fun n => by rw [engines])
    rw [ended, entryHolds_freed, add_zero, entryHolds_occupied _ (by rw [complete]; decide)] at held
    refine countsOk_of_fallen ok.counts [s.entries[slot].route] ?_ fun w => lowerRoute_window (s.freeEntry slot) _ w
    rw [← held, add_comm]; rfl

/-- An engine without the item it had in flight. -/
theorem engine_without_item (s : State) (n m : SegmentNumber) (e : Engine) (queue : e.queue = s.engines[n].queue)
    (idle : e.inFlight = none) : (s.setEngine n e).engines[m].queue = s.engines[m].queue
      ∧ (s.setEngine n e).engines[m].inFlight = if m = n then none else s.engines[m].inFlight := by
  rw [engine_after_set]
  by_cases here : m = n
  · rw [if_pos here, if_pos here, here]; exact ⟨queue, idle⟩
  · rw [if_neg here, if_neg here]; exact ⟨rfl, rfl⟩

/-- The item in flight ends: where it is a reference, its slot leaves the queues (R80, R121). -/
theorem slotsLeave_of_ended {s t : State} (ok : ReferencesOk s) (n : SegmentNumber) (i : Item)
    (held : s.engines[n].inFlight = some i)
    (engines : ∀ m : SegmentNumber, t.engines[m].queue = s.engines[m].queue
      ∧ t.engines[m].inFlight = if m = n then none else s.engines[m].inFlight)
    (ended : ∀ b : Slot, i = .reference b → t.entries[b].state ≠ .queued ∧ t.entries[b].state ≠ .issued)
    (others : ∀ b : Slot, i ≠ .reference b → t.entries[b] = s.entries[b]) : SlotsLeave s t fun b => i = .reference b := by
  have issued (b : Slot) (h : i = .reference b) := ok.issued n b (h ▸ held)
  refine ⟨ended, fun b other => by rw [others b other]; exact ⟨rfl, rfl⟩, fun m => by rw [(engines m).1], fun m b => ?_, fun m b => ?_⟩
  · rw [(engines m).1, iff_self_and]
    exact fun listed taken => absurd ((issued b taken).1.symm.trans (ok.queued m b listed).1) (by decide)
  · rw [(engines m).2]
    by_cases here : m = n
    · rw [if_pos here, here, held, Option.some_inj]
      exact iff_of_false (by simp) fun both => both.2 both.1
    · rw [if_neg here, iff_self_and]
      exact fun flies taken => here ((ok.issued m b flies).2.symm.trans (issued b taken).2)

theorem postedHold_items (e : Engine) (i : Item) (h : e.inFlight = some i) :
    postedHold e.items = postedHold [i] + postedHold e.queue := by
  rw [Engine.items, h, postedHold_append]; rfl

theorem postedHold_idle (e : Engine) (h : e.inFlight = none) : postedHold e.items = postedHold e.queue := by
  rw [Engine.items, h]; rfl

/-- A posted item ends (R104). -/
theorem itemsOk_postedEnds {s : State} (ok : ItemsOk s) (n : SegmentNumber) (p : PostedItem) (e : Engine)
    (held : s.engines[n].inFlight = some (.posted p)) (queue : e.queue = s.engines[n].queue) (idle : e.inFlight = none) :
    ItemsOk ((s.setEngine n e).lowerRoute p.route) := by
  have frame := lowerRoute_frame (s.setEngine n e) p.route
  have entries : ((s.setEngine n e).lowerRoute p.route).entries = s.entries := frame.entries
  have engines := fun m : SegmentNumber => engine_without_item s n m e queue idle
  rw [← frame.engines] at engines
  refine itemsOk_of_moves ok (fun b => by rw [entries]; exact .same _) ?_ ?_
  · exact (slotsLeave_of_ended ok.references n _ held engines (fun b h => by cases h) fun b _ => by rw [entries]).referencesOk
      ok.references
  · have routes := heldRoutes_of_engine (s := s) (t := (s.setEngine n e).lowerRoute p.route) n (fun b => by rw [entries])
      fun m other => by rw [Engine.items, Engine.items, (engines m).1, (engines m).2, if_neg other]
    rw [postedHold_items _ _ held, postedHold_idle ((s.setEngine n e).lowerRoute p.route).engines[n]
      ((engines n).2.trans (if_pos rfl)), (engines n).1, ← add_assoc] at routes
    refine countsOk_of_fallen ok.counts [p.route] ?_ fun w => lowerRoute_window (s.setEngine n e) p.route w
    rw [← add_right_cancel routes, add_comm]; rfl

/-- An entry that was in flight ends or is completed (R80, R89). -/
theorem itemsOk_entryEnds {s t : State} (ok : ItemsOk s) (n : SegmentNumber) (slot : Slot)
    (held : s.engines[n].inFlight = some (.reference slot))
    (engines : ∀ m : SegmentNumber, t.engines[m].queue = s.engines[m].queue
      ∧ t.engines[m].inFlight = if m = n then none else s.engines[m].inFlight)
    (others : ∀ b : Slot, b ≠ slot → t.entries[b] = s.entries[b])
    (move : EntryMove s.entries[slot] t.entries[slot]) (settled : t.entries[slot].state ≠ .queued ∧ t.entries[slot].state ≠ .issued)
    (gone : List Route) (routes : entryHolds s.entries[slot] = gone + entryHolds t.entries[slot])
    (windows : ∀ w : WindowNumber, t.windows[w] = fallen s.windows[w] (gone.count (s.routeOf w))) : ItemsOk t := by
  refine itemsOk_of_moves ok (fun b => ?_) ?_ ?_
  · by_cases here : b = slot
    · rw [here]; exact move
    · rw [others b here]; exact .same _
  · refine (slotsLeave_of_ended ok.references n _ held engines ?_ ?_).referencesOk ok.references
    · rintro b h; cases h; exact settled
    · exact fun b other => others b fun e => other (e ▸ rfl)
  · have sums := heldRoutes_of_entry (s := s) (t := t) slot others fun m => by
      by_cases here : m = n
      · subst here
        rw [postedHold_idle _ ((engines m).2.trans (if_pos rfl)), postedHold_items _ _ held, (engines m).1,
          postedHold_reference, zero_add]
      · rw [Engine.items, Engine.items, (engines m).1, (engines m).2, if_neg here]
    rw [routes, ← add_assoc] at sums
    refine countsOk_of_fallen ok.counts gone ?_ windows
    rw [← add_right_cancel sums, add_comm]

/-- Read data is recorded for a READ that ends OK, and only then (R80, R122). -/
theorem readResult_isSome (e : Entry) (result : ItemResult) (kept : List Byte) :
    (e.readResult result kept).isSome = true ↔ e.kind = .read ∧ result.outcome = .ok := by
  unfold Entry.readResult
  cases e.kind <;> cases result <;> simp [ItemResult.outcome]

/-- An item in flight ends and is handed back (R80, R89, R104). -/
theorem itemsOk_handBack {s : State} (ok : ItemsOk s) (n : SegmentNumber) (i : Item) (e : Engine) (result : ItemResult)
    (kept : List Byte) (held : s.engines[n].inFlight = some i) (queue : e.queue = s.engines[n].queue) (idle : e.inFlight = none) :
    ItemsOk ((s.setEngine n e).handBack n i result kept) := by
  cases i with
  | posted p => exact itemsOk_of_sameTables _ _ (handBack_posted _ n p result kept) (itemsOk_postedEnds ok n p e held queue idle)
  | reference slot =>
    have issued := (ok.references.issued n slot held).1
    have used : s.entries[slot].state ≠ .free := by rw [issued]; decide
    have engines := fun m : SegmentNumber => engine_without_item s n m e queue idle
    rw [← handBack_engines (s.setEngine n e) n (.reference slot) result kept] at engines
    cases orphaned : s.entries[slot].orphaned with
    | true =>
      rw [handBack_orphan (s.setEngine n e) n slot result kept orphaned] at engines ⊢
      have entry (b : Slot) := endEntry_entry (s.setEngine n e) slot b
      have ended := (entry slot).trans (if_pos rfl)
      refine itemsOk_entryEnds ok n slot held engines (fun b other => (entry b).trans (if_neg other)) ?_ ?_
        [s.entries[slot].route] ?_ fun w => lowerRoute_window ((s.setEngine n e).freeEntry slot) _ w
      · rw [ended]; exact .freed _
      · rw [ended]; exact freed_settled _
      · rw [ended, entryHolds_freed, add_zero, entryHolds_occupied _ used]; rfl
    | false =>
      rw [handBack_entry (s.setEngine n e) n slot result kept orphaned] at engines ⊢
      have entry (b : Slot) := completeEntry_entry (s.setEngine n e) slot b result.outcome
        ((s.setEngine n e).entries[slot].readResult result kept)
      have ended := (entry slot).trans (if_pos rfl)
      refine itemsOk_entryEnds ok n slot held engines (fun b other => (entry b).trans (if_neg other)) ?_ ?_ [] ?_ fun w => rfl
      · rw [ended]; exact .completed _ _ _ _ used orphaned (readResult_isSome _ result kept)
      · rw [ended]; exact completed_settled _ _ _ _
      · rw [ended]; exact ((zero_add _).trans (entryHolds_completed _ _ _ _ used)).symm

theorem itemsOk_cycleMove {s t : State} (h : CycleMove s t) (ok : ItemsOk s) : ItemsOk t := by
  cases h with
  | late => exact ok
  | goesOn n kept cycles runs =>
    refine itemsOk_of_sameWindows ok (startCycle_windows s n _ cycles) (by rw [startCycle_eq]; rfl) fun m => ?_
    rw [startCycle_engines, engine_after_set]
    by_cases here : m = n
    · rw [if_pos here, here]; exact ⟨rfl, rfl⟩
    · rw [if_neg here]; exact ⟨rfl, rfl⟩
  | ends n i e result kept t held move queue idle same =>
    exact itemsOk_of_sameTables _ _ same (itemsOk_handBack ok n i e result kept held queue idle)

end Sys2Proof.Proofs.Tables

/-! SUPPORT. The effects that accept an item, start one, or move several: acceptance, the head of a list, abandonment and cancellation. -/

namespace Sys2Proof.Proofs.Tables

open Sys2Proof Sys2Proof.Machine Sys2Proof.Safety Sys2Proof.Proofs.Counts Sys2Proof.Proofs.Effects Sys2Proof.Proofs.Scope
open Sys2Proof.Proofs.WindowTable Sys2Proof.Proofs.Windows Sys2Proof.Proofs.Engines Sys2Proof.Proofs.Items
open Sys2Proof.Proofs.References

/-! ### Acceptance -/

theorem enqueue_queue (s : State) (n m : SegmentNumber) (i : Item) :
    (s.enqueue n i).engines[m].queue = (if m = n then s.engines[m].queue ++ [i] else s.engines[m].queue)
      ∧ (s.enqueue n i).engines[m].inFlight = s.engines[m].inFlight := by
  rw [enqueue_engine]
  by_cases here : m = n
  · rw [if_pos here, if_pos here, here]; exact ⟨rfl, rfl⟩
  · rw [if_neg here, if_neg here]; exact ⟨rfl, rfl⟩

theorem enqueue_items (s : State) (n : SegmentNumber) (i : Item) :
    (s.enqueue n i).engines[n].items = s.engines[n].items ++ [i] := by
  rw [Engine.items, Engine.items, (enqueue_queue s n n i).1, (enqueue_queue s n n i).2, if_pos rfl, List.append_assoc]

theorem enqueue_items_other (s : State) (n m : SegmentNumber) (i : Item) (other : m ≠ n) :
    (s.enqueue n i).engines[m].items = s.engines[m].items := by
  rw [Engine.items, Engine.items, (enqueue_queue s n m i).1, (enqueue_queue s n m i).2, if_neg other]

theorem raiseRoute_windows_congr {s t : State} (r : Route) (h : t.windows = s.windows) :
    (t.raiseRoute r).windows = (s.raiseRoute r).windows := by
  cases r with
  | defaultRoute => exact h
  | window w g =>
    by_cases present : g = s.windows[w].generation
    · have route : Route.window w g = s.routeOf w ∧ Route.window w g = t.routeOf w := by
        simp only [State.routeOf, h, present, and_self]
      rw [route.1, raiseRoute_present, ← route.1, route.2, raiseRoute_present]
      simp only [State.setWindow_windows, h]
    · rw [raiseRoute_stale s w g present, raiseRoute_stale t w g (by rwa [h])]; exact h

/-- A posted item is accepted (R97). -/
theorem itemsOk_acceptPosted {s : State} (ok : ItemsOk s) (n : SegmentNumber) (p : PostedItem)
    (route : p.route = .defaultRoute ∨ ∃ w, p.route = s.routeOf w ∧ s.windows[w].visible = true) :
    ItemsOk ((s.enqueue n (.posted p)).raiseRoute p.route) := by
  have frame := raiseRoute_frame (s.enqueue n (.posted p)) p.route
  have entries : ((s.enqueue n (.posted p)).raiseRoute p.route).entries = s.entries := frame.entries
  refine itemsOk_of_moves ok (fun b => by rw [entries]; exact .same _) ?_ ?_
  · refine referencesOk_congr ok.references (fun b => by rw [entries]; exact ⟨rfl, rfl⟩) fun m => ?_
    rw [frame.engines, (enqueue_queue s n m _).1, (enqueue_queue s n m _).2]
    split
    · simp [referencedSlots, List.filterMap_append]
    · exact ⟨rfl, rfl⟩
  · refine countsOk_of_accepted ok.counts p.route ?_ (raiseRoute_windows_congr p.route rfl) route
    have sums := heldRoutes_of_engine (s := s) (t := (s.enqueue n (.posted p)).raiseRoute p.route) n (fun b => by rw [entries])
      fun m other => by rw [frame.engines]; exact enqueue_items_other s n m _ other
    rw [frame.engines, enqueue_items, postedHold_append, postedHold_posted, add_comm (postedHold s.engines[n].items),
      ← add_assoc] at sums
    rw [add_right_cancel sums, add_comm]

/-- A new entry is accepted with its reference (R74). -/
theorem itemsOk_acceptPending {s : State} (ok : ItemsOk s) (slot : Slot) (x : HandOff) (free : s.entries[slot].occupied = false)
    (new : s.matching x.ask = none)
    (route : x.route = .defaultRoute ∨ ∃ w, x.route = s.routeOf w ∧ s.windows[w].visible = true) :
    ItemsOk (((s.setEntry slot x.entry).enqueue x.segment (.reference slot)).raiseRoute x.route) := by
  have empty : s.entries[slot].state = .free := by simpa [-Fin.getElem_fin, Entry.occupied] using free
  have frame := raiseRoute_frame ((s.setEntry slot x.entry).enqueue x.segment (.reference slot)) x.route
  have written := (entry_after_set s slot slot x.entry).trans (if_pos rfl)
  have others (b : Slot) (other : b ≠ slot) := (entry_after_set s slot b x.entry).trans (if_neg other)
  have queues (m : SegmentNumber) := enqueue_queue (s.setEntry slot x.entry) x.segment m (.reference slot)
  generalize ht : ((s.setEntry slot x.entry).enqueue x.segment (.reference slot)).raiseRoute x.route = t at frame
  have entries : t.entries = (s.setEntry slot x.entry).entries := frame.entries
  rw [← entries] at written others
  rw [← frame.engines] at queues
  have counts : CountsOk t := by
    have one := heldRoutes_of_entry (s := s) (t := s.setEntry slot x.entry) slot
      (fun b other => (entry_after_set s slot b x.entry).trans (if_neg other)) fun _ => rfl
    have all : heldRoutes t = heldRoutes (s.setEntry slot x.entry) := heldRoutes_congr (fun b => by rw [entries]) fun m => by
      rw [Engine.items, Engine.items, (queues m).1, (queues m).2]
      split
      · rw [← List.append_assoc, postedHold_append, postedHold_reference, add_zero]
      · rfl
    have new : (s.setEntry slot x.entry).entries[slot] = x.entry := (entry_after_set s slot slot x.entry).trans (if_pos rfl)
    rw [new, entryHolds_free _ empty, add_zero, entryHolds_occupied x.entry (by simp [HandOff.entry])] at one
    refine countsOk_of_accepted ok.counts x.route ?_ ?_ route
    · rw [all, one, add_comm]; rfl
    · rw [← ht]; exact raiseRoute_windows_congr x.route rfl
  refine ⟨counts, fun b => ?_, ?_, signaturesDistinct_of_new slot x ok.signatures new written others⟩
  · by_cases here : b = slot
    · rw [here, written]; constructor <;> simp [HandOff.entry]
    · rw [others b here]; exact ok.entries b
  · exact referencesOk_of_new ok.references slot x.segment empty (by rw [written]; exact ⟨rfl, rfl⟩) others
      (fun m => (queues m).1) fun m => (queues m).2

theorem itemsOk_accept {s : State} (ok : ItemsOk s) (a : Ask) (x : HandOff) (new : s.matching a = none)
    (passes : s.decode a = .handedOff x) : ItemsOk (s.accept x).1 := by
  obtain ⟨rfl, -, route⟩ := decode_handedOff s a x passes
  rcases accept_cases s x with refused | ⟨-, posted⟩ | ⟨slot, free, pending⟩
  · rw [refused]; exact ok
  · rw [posted]; exact itemsOk_acceptPosted ok x.segment x.item route
  · rw [pending]; exact itemsOk_acceptPending ok slot x free new route

/-! ### The head of a list -/

theorem issue_entry (s : State) (i : Item) (b : Slot) :
    (s.issue i).entries[b] = if i = .reference b then { s.entries[b] with state := .issued } else s.entries[b] := by
  cases i with
  | posted p => rw [if_neg (by simp)]; rfl
  | reference slot =>
    by_cases here : b = slot
    · subst here
      rw [if_pos rfl]
      exact (entry_after_set s b b _).trans (if_pos rfl)
    · rw [if_neg fun e => here (Item.reference.inj e).symm]
      exact (entry_after_set s slot b _).trans (if_neg here)

theorem issue_frame (s : State) (i : Item) : (s.issue i).windows = s.windows ∧ (s.issue i).engines = s.engines := by
  cases i <;> exact ⟨rfl, rfl⟩

theorem itemsOk_takeHead {s : State} (ok : ItemsOk s) (n : SegmentNumber) : ItemsOk (s.takeHead n) := by
  unfold State.takeHead
  dsimp only
  split
  · rename_i ready
    split
    · exact ok
    · rename_i i rest head
      generalize (s.job i).divide s.settings.segments[n].width = cycles
      generalize ht : (s.startCycle n { s.engines[n] with queue := rest, inFlight := some i, kept := [] } cycles).issue i = t
      have windows : t.windows = s.windows := by rw [← ht, (issue_frame _ i).1, startCycle_windows]
      have entries (b : Slot) : t.entries[b] = if i = .reference b then { s.entries[b] with state := .issued } else s.entries[b] := by
        have started : (s.startCycle n { s.engines[n] with queue := rest, inFlight := some i, kept := [] } cycles).entries = s.entries := by
          rw [startCycle_eq]; rfl
        rw [← ht, issue_entry, started]
      have engines (m : SegmentNumber) : t.engines[m].queue = (if m = n then rest else s.engines[m].queue)
          ∧ t.engines[m].inFlight = if m = n then some i else s.engines[m].inFlight := by
        rw [← ht, (issue_frame _ i).2, startCycle_engines, engine_after_set]
        split <;> exact ⟨rfl, rfl⟩
      have queued (b : Slot) (h : i = .reference b) : s.entries[b].state = .queued :=
        (ok.references.queued n b (by rw [head, mem_referencedSlots, h]; exact List.mem_cons_self)).1
      refine itemsOk_of_moves ok (fun b => ?_) ?_ ?_
      · rw [entries b]
        split
        · rename_i taken; exact .issued _ (queued b taken)
        · exact .same _
      · refine referencesOk_of_taken ok.references n i rest head ready.2 (fun m => (engines m).1) (fun m => (engines m).2) fun b => ?_
        rw [entries b]
        split <;> exact ⟨rfl, rfl⟩
      · refine countsOk_of_same ok.counts (heldRoutes_congr (fun b => ?_) fun m => ?_) fun w => by
          rw [windows]; exact ⟨rfl, fun visible _ => ⟨visible, rfl⟩⟩
        · rw [entries b]
          split
          · rename_i taken
            rw [entryHolds_occupied s.entries[b] (by rw [queued b taken]; decide)]; rfl
          · rfl
        · rw [Engine.items, Engine.items, (engines m).1, (engines m).2]
          by_cases here : m = n
          · rw [if_pos here, if_pos here, here, head, ready.2]; rfl
          · rw [if_neg here, if_neg here]
  · exact ok

/-! ### Abandonment -/

theorem abandonItems_entry (s : State) (r : Route) (b : Slot) :
    (s.abandonItems r).entries[b]
      = if s.entries[b].abandonedBy r then s.entries[b].completed .abandoned none s.settings.discardInterval else s.entries[b] := by
  have folded := (completeEntry_fold s (s.abandonedSlots r) ((List.nodup_finRange 16).filter _) .abandoned s (fun _ _ => rfl) rfl).1 b
  have listed : b ∈ s.abandonedSlots r ↔ s.entries[b].abandonedBy r = true := by
    rw [State.abandonedSlots, List.mem_filter]
    exact and_iff_right (List.mem_finRange b)
  rw [abandonItems_eq, State.setNotices_entries, withdraw_entries]
  refine folded.trans ?_
  simp only [listed, finished_eq]

theorem abandonItems_engine (s : State) (r : Route) (n : SegmentNumber) :
    (s.abandonItems r).engines[n] = { s.engines[n] with queue := s.engines[n].queue.filter fun i => !s.abandons r i } := by
  rw [abandonItems_eq, State.setNotices_engines, withdraw_engine, foldl_completeEntry_eq]

/-- What an abandonment takes from a list, counted by routes (R42). -/
theorem postedHold_abandoned (s : State) (r : Route) (l : List Item) :
    postedHold l = ((postedItems l).filter fun p => decide (p.route = r)).length • {r}
      + postedHold (l.filter fun i => !s.abandons r i) := by
  induction l with
  | nil => simp [postedItems]
  | cons i l ih =>
    have split (i : Item) (k : List Item) : postedHold (i :: k) = postedHold [i] + postedHold k := postedHold_append [i] k
    cases i with
    | reference b =>
      have rest : postedHold ((Item.reference b :: l).filter fun i => !s.abandons r i)
          = postedHold (l.filter fun i => !s.abandons r i) := by
        rw [List.filter_cons]
        split
        · rw [split, postedHold_reference, zero_add]
        · rfl
      rw [split, postedHold_reference, zero_add, rest, ih]; rfl
    | posted p =>
      have items : postedItems (Item.posted p :: l) = p :: postedItems l := rfl
      rw [split, postedHold_posted, items, List.filter_cons, List.filter_cons, ih]
      by_cases taken : p.route = r
      · simp only [State.abandons, taken, decide_true, Bool.not_true, Bool.false_eq_true, if_true, if_false, List.length_cons, succ_nsmul']
        abel
      · simp only [State.abandons, taken, decide_false, Bool.not_false, Bool.false_eq_true, if_true, if_false]
        rw [split (.posted p) (List.filter _ l), postedHold_posted]
        abel

theorem abandonItems_heldRoutes (s : State) (r : Route) :
    heldRoutes s = s.abandonedCount r • {r} + heldRoutes (s.abandonItems r) := by
  have entries (b : Slot) : entryHolds (s.abandonItems r).entries[b] = entryHolds s.entries[b] := by
    rw [abandonItems_entry]
    split
    · rename_i taken
      have queued : s.entries[b].state = .queued := (of_decide_eq_true taken).1
      exact entryHolds_completed _ _ _ _ (by rw [queued]; decide)
    · rfl
  have engines (n : SegmentNumber) : postedHold s.engines[n].items
      = (s.abandonedPosted r n).length • {r} + postedHold (s.abandonItems r).engines[n].items := by
    rw [abandonItems_engine, Engine.items, postedHold_append, postedHold_abandoned s r s.engines[n].queue, Engine.items,
      postedHold_append]
    exact add_left_comm _ _ _
  have total : s.abandonedCount r = ∑ n : SegmentNumber, (s.abandonedPosted r n).length := by
    rw [Fin.sum_univ_def]; rfl
  unfold heldRoutes
  rw [Finset.sum_congr rfl fun b _ => entries b, Finset.sum_congr rfl fun n _ => engines n, Finset.sum_add_distrib, total,
    ← Finset.sum_smul, add_left_comm]

/-- An abandonment of a window's unstarted work (R41, R42), with the fall of the window's count (R44). -/
theorem itemsOk_abandonItems {s : State} (ok : ItemsOk s) (w : WindowNumber) :
    ItemsOk ((s.abandonItems (s.routeOf w)).lower w (s.abandonedCount (s.routeOf w))) := by
  have frame := lower_frame (s.abandonItems (s.routeOf w)) w (s.abandonedCount (s.routeOf w))
  have windows (v : WindowNumber) := lower_window (s.abandonItems (s.routeOf w)) w v (s.abandonedCount (s.routeOf w))
  rw [abandonItems_windows] at windows
  generalize (s.abandonItems (s.routeOf w)).lower w (s.abandonedCount (s.routeOf w)) = t at frame windows
  have entry (b : Slot) := abandonItems_entry s (s.routeOf w) b
  have engine (n : SegmentNumber) := abandonItems_engine s (s.routeOf w) n
  rw [← frame.entries] at entry
  rw [← frame.engines] at engine
  have queued (b : Slot) (taken : s.entries[b].abandonedBy (s.routeOf w) = true) : s.entries[b].state = .queued :=
    (of_decide_eq_true taken).1
  refine itemsOk_of_moves ok (fun b => ?_) ?_ ?_
  · rw [entry b]
    split
    · rename_i taken
      have awaited : s.entries[b].orphaned = false := Bool.eq_false_iff.2 fun orphaned =>
        absurd ((queued b taken).symm.trans ((ok.entries b).orphaned orphaned)) (by decide)
      exact .completed _ _ _ _ (by rw [queued b taken]; decide) awaited (by simp)
    · exact .same _
  · refine SlotsLeave.referencesOk (s := s) (gone := fun b => s.entries[b].abandonedBy (s.routeOf w) = true)
      ⟨fun b taken => ?_, fun b stays => ?_, fun n => ?_, fun n b => ?_, fun n b => ?_⟩ ok.references
    · rw [entry b, if_pos taken]; exact completed_settled _ _ _ _
    · rw [entry b, if_neg stays]; exact ⟨rfl, rfl⟩
    · rw [engine n]; exact List.filter_sublist.filterMap _
    · rw [engine n, mem_referencedSlots_withdrawn, Bool.not_eq_true]; rfl
    · rw [engine n, iff_self_and]
      exact fun flies taken => absurd ((queued b taken).symm.trans (ok.references.issued n b flies).1) (by decide)
  · have held := abandonItems_heldRoutes s (s.routeOf w)
    have same : heldRoutes t = heldRoutes (s.abandonItems (s.routeOf w)) :=
      heldRoutes_congr (fun b => by rw [frame.entries]) fun n => by rw [frame.engines]
    rw [← same] at held
    refine countsOk_of_gone ok.counts _ held (fun v => ?_) fun v visible some => ?_
    · rw [windows v]
      by_cases here : v = w
      · rw [if_pos here, here, Multiset.count_nsmul, Multiset.count_singleton_self, mul_one]; rfl
      · have other : s.routeOf v ≠ s.routeOf w := fun e => here (Route.window.inj e).1
        rw [if_neg here, Multiset.count_nsmul, Multiset.count_singleton, if_neg other, mul_zero, Nat.sub_zero]
    · rw [windows v] at some ⊢
      by_cases here : v = w
      · rw [if_pos here] at some ⊢
        rw [here] at visible ⊢
        exact ⟨lowered_visible _ _ visible some, rfl⟩
      · rw [if_neg here]; exact ⟨visible, rfl⟩

theorem itemsOk_abandon {s : State} (ok : ItemsOk s) (w : WindowNumber) : ItemsOk (s.abandon w) := by
  have closed := itemsOk_abandonItems (itemsOk_closed ok w .abandoned) w
  have route : (s.setWindow w (s.windows[w].closed .abandoned)).routeOf w = s.routeOf w := by
    unfold State.routeOf
    rw [window_after_set, if_pos rfl]; rfl
  rw [route] at closed
  exact closed

/-! ### Cancellation -/

theorem cancelEntries_entry (s : State) (r : Requester) (b : Slot) : (s.cancelEntries r).entries[b] = s.entries[b].cancelled r := by
  simp [State.cancelEntries]

theorem freedByCancel_iff (e : Entry) (r : Requester) :
    e.freedByCancel r = true ↔ e.requester = r ∧ (e.state = .queued ∨ e.state = .complete) := decide_eq_true_iff

theorem cancelled_move (e : Entry) (r : Requester) : EntryMove e (e.cancelled r) := by
  unfold Entry.cancelled
  split
  · exact .freed e
  · split
    · rename_i own; exact .orphaned e own.2
    · exact .same e

/-- The route of an entry that a cancellation frees ends; the others stay (R88). -/
theorem entryHolds_cancelled (e : Entry) (r : Requester) :
    entryHolds e = (if e.freedByCancel r then {e.route} else 0) + entryHolds (e.cancelled r) := by
  unfold Entry.cancelled
  by_cases freed : e.freedByCancel r = true
  · have used : e.state ≠ .free := fun free => by
      rcases ((freedByCancel_iff e r).1 freed).2 with queued | complete
      · exact absurd (free.symm.trans queued) (by decide)
      · exact absurd (free.symm.trans complete) (by decide)
    rw [if_pos freed, if_pos freed, entryHolds_freed, add_zero, entryHolds_occupied e used]
  · rw [if_neg freed, if_neg freed, zero_add]
    split <;> rfl

/-- A cancellation takes no posted item from a list (R88). -/
theorem postedHold_cancelled (s : State) (r : Requester) (l : List Item) :
    postedHold (l.filter fun i => !s.cancels r i) = postedHold l := by
  induction l with
  | nil => rfl
  | cons i l ih =>
    have split (i : Item) (k : List Item) : postedHold (i :: k) = postedHold [i] + postedHold k := postedHold_append [i] k
    cases i with
    | posted p =>
      have stays : (Item.posted p :: l).filter (fun i => !s.cancels r i) = .posted p :: l.filter fun i => !s.cancels r i := rfl
      rw [stays, split, split (.posted p) l, ih]
    | reference b =>
      rw [split, postedHold_reference, zero_add, ← ih, List.filter_cons]
      split
      · rw [split, postedHold_reference, zero_add]
      · rfl

theorem itemsOk_cancel {s : State} (ok : ItemsOk s) (r : Requester) : ItemsOk (s.cancel r) := by
  have frame := lowerRoutes_frame ((s.cancelEntries r).withdraw (s.cancels r)) (s.cancelledRoutes r)
  have windows (w : WindowNumber) := lowerRoutes_window ((s.cancelEntries r).withdraw (s.cancels r)) (s.cancelledRoutes r) w
  have cancel : ((s.cancelEntries r).withdraw (s.cancels r)).lowerRoutes (s.cancelledRoutes r) = s.cancel r := rfl
  have before : ((s.cancelEntries r).withdraw (s.cancels r)).windows = s.windows :=
    (withdraw_windows _ _).trans (cancelEntries_windows s r)
  simp only [State.routeOf, before] at windows
  rw [cancel] at frame windows
  generalize s.cancel r = t at frame windows
  have entry (b : Slot) : t.entries[b] = s.entries[b].cancelled r := by
    rw [frame.entries, withdraw_entries, cancelEntries_entry]
  have engine (n : SegmentNumber) :
      t.engines[n] = { s.engines[n] with queue := s.engines[n].queue.filter fun i => !s.cancels r i } := by
    rw [frame.engines, withdraw_engine]; rfl
  have stays (b : Slot) (kept : ¬ s.entries[b].freedByCancel r = true) :
      t.entries[b].state = s.entries[b].state ∧ t.entries[b].segment = s.entries[b].segment := by
    rw [entry b, Entry.cancelled, if_neg kept]
    split <;> exact ⟨rfl, rfl⟩
  refine itemsOk_of_moves ok (fun b => by rw [entry b]; exact cancelled_move _ r) ?_ ?_
  · refine SlotsLeave.referencesOk (s := s) (gone := fun b => s.entries[b].freedByCancel r = true)
      ⟨fun b freed => ?_, stays, fun n => ?_, fun n b => ?_, fun n b => ?_⟩ ok.references
    · rw [entry b, Entry.cancelled, if_pos freed]; exact freed_settled _
    · rw [engine n]; exact List.filter_sublist.filterMap _
    · rw [engine n, mem_referencedSlots_withdrawn]
      refine and_congr_right fun listed => ?_
      have queued := (ok.references.queued n b listed).1
      simp [-Fin.getElem_fin, State.cancels, Entry.freedByCancel, queued]
    · rw [engine n, iff_self_and]
      intro flies freed
      have issued := (ok.references.issued n b flies).1
      simp [-Fin.getElem_fin, freedByCancel_iff, issued] at freed
  · have gone : ((s.cancelledRoutes r : List Route) : Multiset Route)
        = ∑ b : Slot, if s.entries[b].freedByCancel r then {s.entries[b].route} else 0 := by
      rw [State.cancelledRoutes, coe_filter_map, Fin.sum_univ_def]; rfl
    have held : heldRoutes s = (s.cancelledRoutes r : List Route) + heldRoutes t := by
      have entries (b : Slot) : entryHolds s.entries[b] = _ := entryHolds_cancelled s.entries[b] r
      have engines (n : SegmentNumber) : postedHold t.engines[n].items = postedHold s.engines[n].items := by
        rw [engine n, Engine.items, Engine.items, postedHold_append, postedHold_append, postedHold_cancelled]
      unfold heldRoutes
      rw [Finset.sum_congr rfl fun b _ => entries b, Finset.sum_add_distrib, ← gone, Finset.sum_congr rfl fun n _ => engines n, add_assoc,
        Finset.sum_congr rfl fun b _ => congrArg entryHolds (entry b)]
    exact countsOk_of_fallen ok.counts (s.cancelledRoutes r) held windows

end Sys2Proof.Proofs.Tables

/-! SUPPORT. The resets, the tick and the invariant of all tables; every invariant right after a cold reset. -/

namespace Sys2Proof.Proofs.Tables

open Sys2Proof Sys2Proof.Machine Sys2Proof.Safety Sys2Proof.Proofs.Counts Sys2Proof.Proofs.Effects Sys2Proof.Proofs.Scope
open Sys2Proof.Proofs.WindowTable Sys2Proof.Proofs.Windows Sys2Proof.Proofs.Engines Sys2Proof.Proofs.Items
open Sys2Proof.Proofs.References

/-! ### The reset of one segment -/

/-- An entry that a reset ends (R82). -/
def resetTo (e : Entry) (interval : Nat) : Entry :=
  if e.orphaned then e.freed else e.completed .segmentReset none interval

theorem resetTo_settled (e : Entry) (interval : Nat) : (resetTo e interval).state ≠ .queued ∧ (resetTo e interval).state ≠ .issued := by
  unfold resetTo
  split
  · exact freed_settled e
  · exact completed_settled e _ _ _

theorem resetTo_move (e : Entry) (interval : Nat) (used : e.state ≠ .free) : EntryMove e (resetTo e interval) := by
  unfold resetTo
  split
  · exact .freed e
  · rename_i awaited; exact .completed e _ _ _ used (Bool.eq_false_iff.2 awaited) (by simp)

/-- Only the route of an orphan ends with its entry (R130). -/
theorem entryHolds_resetTo (e : Entry) (interval : Nat) (used : e.state ≠ .free) :
    entryHolds e = (if e.orphaned = true then {e.route} else 0) + entryHolds (resetTo e interval) := by
  unfold resetTo
  split
  · rw [entryHolds_freed, add_zero, entryHolds_occupied e used]
  · rw [zero_add, entryHolds_completed e _ _ _ used]

theorem resetSegment_entry (s : State) (ok : ReferencesOk s) (n : SegmentNumber) (b : Slot) :
    (s.resetSegment n).entries[b]
      = if b ∈ referencedSlots s.engines[n].items then resetTo s.entries[b] s.settings.discardInterval else s.entries[b] := by
  obtain ⟨notices, reset⟩ := resetSegment_eq s n
  rw [reset, (lowerRoutes_frame _ _).entries, State.setNotices_entries, State.setEngine_entries]
  exact (resetEntry_fold s (referencedSlots s.engines[n].items) (items_refer_once s n ok) s (fun _ _ => rfl) rfl).1 b

theorem resetSegment_engine (s : State) (n m : SegmentNumber) :
    (s.resetSegment n).engines[m].queue = (if m = n then [] else s.engines[m].queue)
      ∧ (s.resetSegment n).engines[m].inFlight = if m = n then none else s.engines[m].inFlight := by
  obtain ⟨notices, reset⟩ := resetSegment_eq s n
  rw [reset, (lowerRoutes_frame _ _).engines, State.setNotices_engines, engine_after_set]
  split <;> exact ⟨rfl, rfl⟩

theorem resetSegment_window (s : State) (n : SegmentNumber) (w : WindowNumber) :
    (s.resetSegment n).windows[w] = fallen s.windows[w] ((s.endedRoutes n).count (s.routeOf w)) := by
  obtain ⟨notices, reset⟩ := resetSegment_eq s n
  rw [reset, lowerRoutes_window]
  rfl

theorem resetSegment_heldRoutes (s : State) (ok : ReferencesOk s) (n : SegmentNumber) :
    heldRoutes s = (s.endedRoutes n : List Route) + heldRoutes (s.resetSegment n) := by
  have once : (s.heldSlots n true).Nodup := (items_refer_once s n ok).filter _
  have entries (b : Slot) : entryHolds s.entries[b]
      = (if b ∈ s.heldSlots n true then {s.entries[b].route} else 0) + entryHolds (s.resetSegment n).entries[b] := by
    rw [resetSegment_entry s ok]
    by_cases held : b ∈ referencedSlots s.engines[n].items
    · have used : s.entries[b].state ≠ .free := fun free => by
        rcases ((held_slot s ok n b).1 held).1 with queued | issued
        · exact absurd (free.symm.trans queued) (by decide)
        · exact absurd (free.symm.trans issued) (by decide)
      have listed : b ∈ s.heldSlots n true ↔ s.entries[b].orphaned = true := by
        rw [State.heldSlots, List.mem_filter, beq_iff_eq]
        exact and_iff_right held
      simp only [listed]
      rw [if_pos held, ← entryHolds_resetTo _ _ used]
    · have absent : b ∉ s.heldSlots n true := fun h => held (List.mem_filter.1 h).1
      rw [if_neg held, if_neg absent, zero_add]
  have engines := sum_update (fun m : SegmentNumber => postedHold (s.resetSegment n).engines[m].items)
    (fun m : SegmentNumber => postedHold s.engines[m].items) n fun m other => by
      rw [Engine.items, Engine.items, (resetSegment_engine s n m).1, (resetSegment_engine s n m).2, if_neg other, if_neg other]
  have emptied : postedHold (s.resetSegment n).engines[n].items = 0 := by
    rw [Engine.items, (resetSegment_engine s n n).1, (resetSegment_engine s n n).2, if_pos rfl, if_pos rfl]; rfl
  rw [emptied, add_zero] at engines
  have gone : ((s.endedRoutes n : List Route) : Multiset Route)
      = postedHold s.engines[n].items + ∑ b : Slot, if b ∈ s.heldSlots n true then {s.entries[b].route} else 0 := by
    rw [State.endedRoutes, ← Multiset.coe_add, coe_map_of_nodup _ once]; rfl
  rw [gone]
  unfold heldRoutes
  rw [Finset.sum_congr rfl fun b _ => entries b, Finset.sum_add_distrib, ← engines]
  abel

theorem itemsOk_resetSegment {s : State} (ok : ItemsOk s) (n : SegmentNumber) : ItemsOk (s.resetSegment n) := by
  have refs := ok.references
  have entry (b : Slot) := resetSegment_entry s refs n b
  have engine (m : SegmentNumber) := resetSegment_engine s n m
  refine itemsOk_of_moves ok (fun b => ?_) ?_
    (countsOk_of_fallen ok.counts _ (resetSegment_heldRoutes s refs n) (resetSegment_window s n))
  · rw [entry b]
    split
    · rename_i held
      refine resetTo_move _ _ fun free => ?_
      rcases ((held_slot s refs n b).1 held).1 with queued | issued
      · exact absurd (free.symm.trans queued) (by decide)
      · exact absurd (free.symm.trans issued) (by decide)
    · exact .same _
  · refine SlotsLeave.referencesOk (s := s) (gone := fun b => b ∈ referencedSlots s.engines[n].items)
      ⟨fun b held => ?_, fun b stays => ?_, fun m => ?_, fun m b => ?_, fun m b => ?_⟩ refs
    · rw [entry b, if_pos held]; exact resetTo_settled _ _
    · rw [entry b, if_neg stays]; exact ⟨rfl, rfl⟩
    · rw [(engine m).1]
      split
      · exact List.nil_sublist _
      · exact List.Sublist.refl _
    · rw [(engine m).1]
      by_cases here : m = n
      · rw [if_pos here, here]
        exact iff_of_false List.not_mem_nil fun both => both.2 ((mem_items_reference _ b).2 (.inr both.1))
      · rw [if_neg here, iff_self_and]
        exact fun listed held => here ((refs.queued m b listed).2.symm.trans ((held_slot s refs n b).1 held).2)
    · rw [(engine m).2]
      by_cases here : m = n
      · rw [if_pos here, here]
        exact iff_of_false (by simp) fun both => both.2 ((mem_items_reference _ b).2 (.inl both.1))
      · rw [if_neg here, iff_self_and]
        exact fun flies held => here ((refs.issued m b flies).2.symm.trans ((held_slot s refs n b).1 held).2)

/-! ### An empty part -/

/-- No entry, no item, nothing in flight. -/
theorem itemsOk_of_empty (s : State) (windows : ∀ w : WindowNumber, s.windows[w].inFlight = 0)
    (entries : ∀ b : Slot, EntryOk s.entries[b] ∧ s.entries[b].state = .free)
    (engines : ∀ n : SegmentNumber, s.engines[n].queue = [] ∧ s.engines[n].inFlight = none) : ItemsOk s := by
  have held : heldRoutes s = 0 := by
    unfold heldRoutes
    rw [Finset.sum_eq_zero fun b _ => entryHolds_free _ (entries b).2, zero_add]
    exact Finset.sum_eq_zero fun n _ => by rw [Engine.items, (engines n).1, (engines n).2]; rfl
  refine ⟨(countsOk_iff s).2 ⟨fun w => by rw [windows w, held]; rfl, fun w g named => ?_⟩, fun b => (entries b).1,
    (referencesOk_iff s).2 ⟨fun n => ?_, fun n b => ?_, fun n b => ?_⟩, fun a b _ occupied => ?_⟩
  · rw [held] at named; exact absurd named (Multiset.notMem_zero _)
  · rw [(engines n).1]; exact List.nodup_nil
  · rw [(engines n).1, (entries b).2]
    exact iff_of_false List.not_mem_nil fun h => absurd h.1 (by decide)
  · rw [(engines n).2, (entries b).2]
    exact iff_of_false (by simp) fun h => absurd h.1 (by decide)
  · exact absurd (entries a).2 (of_decide_eq_true occupied)

theorem itemsOk_warmReset (s : State) : ItemsOk s.warmReset := by
  refine itemsOk_of_empty _ (fun w => ?_) (fun b => ?_) fun n => ?_
  · rw [warmReset_window]; rfl
  · rw [warmReset_entry]; exact ⟨entryOk_freed _, rfl⟩
  · rw [warmReset_engine]; exact ⟨rfl, rfl⟩

theorem itemsOk_of_cold (s : State) (windows : ∀ w : WindowNumber, s.windows[w] = Window.cold)
    (entries : ∀ b : Slot, s.entries[b] = Entry.cold) (engines : ∀ n : SegmentNumber, s.engines[n] = Engine.cold) : ItemsOk s :=
  itemsOk_of_empty s (fun w => by rw [windows w]; rfl) (fun b => by rw [entries b]; exact ⟨entryOk_cold, rfl⟩)
    fun n => by rw [engines n]; exact ⟨rfl, rfl⟩

/-! ### Every effect -/

theorem itemsOk_turn {s : State} (ok : ItemsOk s) (n : SegmentNumber) (e : Engine) (turn : EngineTurn s.engines[n] e) :
    ItemsOk (s.setEngine n e) := by
  have same : e.queue = s.engines[n].queue ∧ e.inFlight = s.engines[n].inFlight := by cases turn <;> exact ⟨rfl, rfl⟩
  refine itemsOk_of_sameWindows ok rfl rfl fun m => ?_
  rw [engine_after_set]
  by_cases here : m = n
  · rw [if_pos here, here]; exact same
  · rw [if_neg here]; exact ⟨rfl, rfl⟩

theorem itemsOk_of_effect {s t : State} (h : Effect s t) (engines : EnginesOk s) (ok : ItemsOk s) : ItemsOk t := by
  cases h with
  | nothing => exact ok
  | endsEntry slot done => exact itemsOk_endEntry ok slot (done.elim id (ok.entries slot).discard.1)
  | accepts a x new passes => exact itemsOk_accept ok a x new passes
  | opens w o free mapping top clear => exact itemsOk_open ok w o free
  | amends w o allowed mapping top clear => exact itemsOk_setWindow ok w _ rfl fun visible _ => ⟨visible, rfl⟩
  | renews w lease allowed => exact itemsOk_setWindow ok w _ rfl fun visible _ => ⟨visible, rfl⟩
  | freezes w allowed => exact itemsOk_setWindow ok w _ rfl fun visible _ => ⟨visible, rfl⟩
  | closes w reason allowed => exact itemsOk_settle (itemsOk_closed ok w reason) w
  | abandons w used thawed => exact itemsOk_abandon ok w
  | cancels r => exact itemsOk_cancel ok r
  | turns n e turn => exact itemsOk_turn ok n e turn
  | resets n => exact itemsOk_resetSegment ok n
  | takesHead n => exact itemsOk_takeHead ok n
  | acknowledges answered data => exact itemsOk_cycleMove (acknowledge_cycleMove s engines answered data) ok
  | timesOut n => exact itemsOk_cycleMove (timeOut_cycleMove s engines n) ok
  | errs answered => exact itemsOk_cycleMove (errCycle_cycleMove s engines answered) ok
  | warms => exact itemsOk_warmReset s
  | writes name value v field written => exact itemsOk_of_sameWindows ok rfl rfl fun n => ⟨rfl, rfl⟩

theorem itemsOk_tick {s : State} (ok : ItemsOk s) : ItemsOk s.tick := by
  refine itemsOk_of_moves ok (fun b => by rw [tick_entry]; exact .ticks _) ?_ (countsOk_of_same ok.counts ?_ fun w => ?_)
  · exact referencesOk_congr ok.references (fun b => by rw [tick_entry]; exact ⟨rfl, rfl⟩)
      fun n => by rw [tick_engine]; exact ⟨rfl, rfl⟩
  · exact heldRoutes_congr (fun b => by rw [tick_entry]; rfl) fun n => by rw [tick_engine]; rfl
  · rw [tick_window]; exact ⟨rfl, fun visible _ => ⟨visible, rfl⟩⟩

/-! ### The invariants of the tables -/

theorem tablesOk_iff (s : State) : TablesOk s ↔ WindowTableOk s ∧ EnginesOk s ∧ ItemsOk s :=
  ⟨fun ok => ⟨ok.windows, ok.engines, ok.counts, ok.entries, ok.references, ok.signatures⟩,
    fun ⟨windows, engines, items⟩ => ⟨windows, engines, items.counts, items.entries, items.references, items.signatures⟩⟩

theorem enginesMove_tick (s : State) : EnginesMove s s.tick :=
  ⟨fun n => by rw [tick_engine]; exact .ticks _, le_rfl, id⟩

theorem enginesOk_of_cold (s : State) (settings : s.settings = Settings.initial)
    (engines : ∀ n : SegmentNumber, s.engines[n] = Engine.cold) : EnginesOk s :=
  ⟨settings ▸ settingsOk_initial, fun n => engines n ▸ engineOk_cold, fun n x current => by rw [engines n] at current; cases current⟩

theorem tablesOk_of_cold (s : State) (settings : s.settings = Settings.initial)
    (windows : ∀ w : WindowNumber, s.windows[w] = Window.cold) (entries : ∀ b : Slot, s.entries[b] = Entry.cold)
    (engines : ∀ n : SegmentNumber, s.engines[n] = Engine.cold) : TablesOk s :=
  (tablesOk_iff s).2 ⟨windowTableOk_of_cold s windows, enginesOk_of_cold s settings engines, itemsOk_of_cold s windows entries engines⟩

theorem coldReset_entry (s : State) (b : Slot) : s.coldReset.entries[b] = Entry.cold := by simp [State.coldReset]

theorem coldReset_engine (s : State) (n : SegmentNumber) : s.coldReset.engines[n] = Engine.cold := by simp [State.coldReset]

theorem tablesOk_of_sameTables (s t : State) (same : SameTables s t) (ok : TablesOk s) : TablesOk t := by
  obtain ⟨windows, engines, items⟩ := (tablesOk_iff s).1 ok
  exact (tablesOk_iff t).2 ⟨(tableMove_of_sameWindows same.windows).windowTableOk windows,
    (enginesMove_of_sameEngines same.engines same.cyclesStarted same.settings).enginesOk engines, itemsOk_of_sameTables s t same items⟩

theorem tablesOk_tick (s : State) (ok : TablesOk s) : TablesOk s.tick := by
  obtain ⟨windows, engines, items⟩ := (tablesOk_iff s).1 ok
  exact (tablesOk_iff _).2 ⟨(tableMove_tick s).windowTableOk windows, (enginesMove_tick s).enginesOk engines, itemsOk_tick items⟩

theorem tablesOk_of_effect (s t : State) (h : Effect s t) (ok : TablesOk s) : TablesOk t := by
  obtain ⟨windows, engines, items⟩ := (tablesOk_iff s).1 ok
  exact (tablesOk_iff t).2 ⟨(tableMove_of_effect h).windowTableOk windows, (enginesMove_of_effect h engines).enginesOk engines,
    itemsOk_of_effect h engines items⟩

/-- Settles O60: the windows, the engines and the items each outlast every effect, the items by help of the engines. -/
theorem stepsKeepTheTables : Obligations.StepsKeepTheTables :=
  step_keeps TablesOk tablesOk_of_sameTables tablesOk_tick
    (fun s _ => tablesOk_of_cold _ rfl (coldReset_window s) (coldReset_entry s) (coldReset_engine s)) tablesOk_of_effect

/-! ### Right after a cold reset -/

theorem noticesOk_cold : NoticesOk NoticeUnit.cold none := by
  constructor <;> simp [NoticeUnit.cold, waiting]

theorem portOk_reset : PortOk State.reset :=
  ⟨fun restarting => (nomatch restarting), fun _ asserted => (nomatch asserted)⟩

theorem coldHeld_reset : ColdHeld { State.reset with power := .off } :=
  ⟨rfl, rfl, rfl, reset_window, reset_entry, reset_engine, rfl, rfl⟩

theorem tablesOk_reset : TablesOk State.reset := tablesOk_of_cold _ rfl reset_window reset_entry reset_engine

/-- Settles O55: each invariant of cold records, an empty Notice Unit and the initial settings. -/
theorem invariantsHoldAfterReset : Obligations.InvariantsHoldAfterReset :=
  ⟨settingsOk_initial, tablesOk_reset.windows, tablesOk_reset.engines, noticesOk_cold, portOk_reset, coldHeld_reset, tablesOk_reset⟩

end Sys2Proof.Proofs.Tables

/-! SUPPORT. The path of a management ask whose row runs one command: every command of the window family is answered through it. -/

namespace Sys2Proof.Proofs.Rows

open Sys2Proof Sys2Proof.Machine Sys2Proof.Safety

/-- Every ask of a row runs one command of the block that owns it: `RunsCommand`, for a row that is named and not spelled by its code. -/
def RowRuns (row : Header → List Byte → Instr) (c : List Byte → Command) : Prop :=
  ∀ h ops s, exec (row h ops) s = .next (manage h ops (c ops) s)

theorem openWindow_runs : RowRuns .openWindow openCommand := fun _ _ _ => rfl

theorem amend_runs : RowRuns .amend amendCommand := fun _ _ _ => rfl

theorem renew_runs : RowRuns .renew renewCommand := fun _ _ _ => rfl

theorem freeze_runs : RowRuns .freeze freezeCommand := fun _ _ _ => rfl

theorem close_runs : RowRuns .close closeCommand := fun _ _ _ => rfl

theorem closeWithAbandon_runs : RowRuns .closeWithAbandon closeCommand := fun _ _ _ => rfl

theorem query_runs : RowRuns .query queryCommand := fun _ _ _ => rfl

theorem lookup_runs : RowRuns .lookup lookupCommand := fun _ _ _ => rfl

theorem rowRuns_ofCommandCode {code : Byte} {c : List Byte → Command} (runs : RunsCommand code c) :
    RowRuns (fun h ops => ofCommandCode h code ops) c := runs

section
variable {row : Header → List Byte → Instr} {c : List Byte → Command} {s : State} {r : Requester} {block : List Byte}

/-- A member's command that is done is answered MANAGED with its result block (R157). -/
theorem RowRuns.done (runs : RowRuns row c) (member : Manages s r) (short : block.length ≤ 24) {t : State} {result : List Byte}
    (ok : c block s = .ok (t, result)) : exec (manageAsk row r block) s = .next (t.answer r (.managed result)) :=
  (runs _ _ _).trans (congrArg _ (manage_member_ok s t r block result (c block) member short ok))

/-- A member's command that is refused is answered FAULT with its code, and nothing else changes (R157). -/
theorem RowRuns.refused (runs : RowRuns row c) (member : Manages s r) (short : block.length ≤ 24) {code : FaultCode}
    (error : c block s = .error code) : exec (manageAsk row r block) s = .next (s.answer r (.fault code)) :=
  (runs _ _ _).trans (congrArg _ (manage_member_error s r block (c block) code member short error))

end

end Sys2Proof.Proofs.Rows

/-! SUPPORT. The window commands on the operand blocks of the statements (R25–R47): what each check refuses and what a command that passes
them leaves. -/

namespace Sys2Proof.Proofs.Lifetime

open Sys2Proof Sys2Proof.Machine Sys2Proof.Safety Sys2Proof.Proofs.Scope Sys2Proof.Proofs.Effects Sys2Proof.Proofs.Windows
open Sys2Proof.Proofs.Tables Sys2Proof.Proofs.Rows

theorem fieldOf_one (n : Nat) : fieldOf 1 n = [byteOf n] := rfl

/-! ### OPEN -/

theorem record_mappingOk_iff (o : OpenOperands) (old : Window) : (o.record old).mappingOk = true ↔ OpenValid o := mappingOk_iff _

theorem record_blocked_iff (s : State) (w : WindowNumber) (o : OpenOperands) (old : Window) :
    s.blocked w (o.record old) = true ↔ Overlaps s w o.space o.base o.limit := blocked_iff s w _

theorem chooseRecord_in_use (s : State) (w : WindowNumber) (used : s.windows[w].state ≠ .free) :
    s.chooseRecord (some w) = .error .inUse :=
  if_pos (decide_eq_true used)

theorem chooseRecord_none_free (s : State) (used : ∀ w : WindowNumber, s.windows[w].state ≠ .free) :
    s.chooseRecord none = .error .noFreeWindow := by
  have none_free : (allWindows.find? fun w => !s.windows[w].visible) = none := by
    rw [List.find?_eq_none]
    intro w _ free
    rw [Bool.not_eq_true', visible_eq_false_iff] at free
    exact used w free
  simp only [State.chooseRecord, none_free]

theorem openCommand_invalid (s : State) (o : OpenOperands) (fits : OpenEncodable o) (invalid : ¬ OpenValid o) :
    openCommand (openBlock o) s = .error .badOperand := by
  simp only [openCommand, parseOpen_openBlock o fits, record_mappingOk_iff, if_neg invalid]

theorem openCommand_without_record (s : State) (o : OpenOperands) (code : FaultCode) (fits : OpenEncodable o) (valid : OpenValid o)
    (without : s.chooseRecord o.window = .error code) : openCommand (openBlock o) s = .error code := by
  simp only [openCommand, parseOpen_openBlock o fits, record_mappingOk_iff, if_pos valid, without]

/-- OPEN that has its record, by the check of R27. -/
theorem openCommand_chosen (s : State) (o : OpenOperands) (w : WindowNumber) (fits : OpenEncodable o) (valid : OpenValid o)
    (chosen : Chosen s o.window w) :
    openCommand (openBlock o) s
      = if s.blocked w (o.record s.windows[w]) then .error .overlap
        else .ok (s.setWindow w (o.record s.windows[w]), windowResult w (o.record s.windows[w])) := by
  simp only [openCommand, parseOpen_openBlock o fits, record_mappingOk_iff, if_pos valid, chooseRecord_of_chosen s o.window w chosen]

/-- Settles O19: past every check the chosen record is written, and its number and generation are the answer. -/
theorem openInstallsTheRecord : Obligations.OpenInstallsTheRecord := by
  intro s r o w member fits valid chosen clear
  have installs := openCommand_chosen s o w fits valid chosen
  rw [if_neg (mt (record_blocked_iff s w o _).1 clear)] at installs
  exact openWindow_runs.done member (openBlock_length o).le installs

/-- Settles O20: each of the four checks that may fail, after those before it have passed. -/
theorem openRefusalsInOrder : Obligations.OpenRefusalsInOrder := by
  intro s r o code member fits fails
  refine openWindow_runs.refused member (openBlock_length o).le ?_
  rcases fails with ⟨invalid, rfl⟩ | ⟨valid, ⟨w, named, used⟩, rfl⟩ | ⟨valid, any, used, rfl⟩ | ⟨valid, ⟨w, chosen, overlaps⟩, rfl⟩
  · exact openCommand_invalid s o fits invalid
  · exact openCommand_without_record s o _ fits valid (named ▸ chooseRecord_in_use s w used)
  · exact openCommand_without_record s o _ fits valid (any ▸ chooseRecord_none_free s used)
  · rw [openCommand_chosen s o w fits valid chosen, if_pos ((record_blocked_iff s w o _).2 overlaps)]

/-! ### AMEND, RENEW, FREEZE -/

theorem changeRefused_of_not_opened (w : Window) (h : w.state ≠ .opened) : w.changeRefused = some .notOpen := if_pos h

theorem changeRefused_of_frozen (w : Window) (opened : w.state = .opened) (frozen : w.frozen = true) :
    w.changeRefused = some .frozen := by
  unfold Window.changeRefused
  rw [if_neg (not_not.2 opened), if_pos frozen]

theorem changeRefused_of_thawed (w : Window) (opened : w.state = .opened) (thawed : w.frozen = false) : w.changeRefused = none :=
  (changeRefused_eq_none_iff w).2 ⟨opened, thawed⟩

/-- The two refusals that AMEND, RENEW and FREEZE share (R30, R32, R36). -/
theorem changes_refused {row : Header → List Byte → Instr} {c : List Byte → Command} (runs : RowRuns row c) {s : State} {r : Requester}
    {block : List Byte} (member : Manages s r) (short : block.length ≤ 24) (w : WindowNumber)
    (refuses : ∀ code, s.windows[w].changeRefused = some code → c block s = .error code) :
    (s.windows[w].state ≠ .opened → exec (manageAsk row r block) s = .next (s.answer r (.fault .notOpen)))
    ∧ (s.windows[w].state = .opened → s.windows[w].frozen = true →
        exec (manageAsk row r block) s = .next (s.answer r (.fault .frozen))) :=
  ⟨fun shut => runs.refused member short (refuses _ (changeRefused_of_not_opened _ shut)),
    fun opened frozen => runs.refused member short (refuses _ (changeRefused_of_frozen _ opened frozen))⟩

theorem amendCommand_refused (s : State) (o : AmendOperands) (code : FaultCode) (fits : AmendEncodable o)
    (refused : s.windows[o.window].changeRefused = some code) : amendCommand (amendBlock o) s = .error code := by
  simp only [amendCommand, parseAmend_amendBlock o fits, refused]

/-- AMEND of a window that may change, by the checks of R30 on the merged record. -/
theorem amendCommand_merges (s : State) (o : AmendOperands) (fits : AmendEncodable o)
    (changeable : s.windows[o.window].changeRefused = none) :
    amendCommand (amendBlock o) s
      = if (amended o s.windows[o.window]).mappingOk then
          if s.blocked o.window (amended o s.windows[o.window]) then .error .overlap
          else .ok (s.setWindow o.window (amended o s.windows[o.window]), windowResult o.window (amended o s.windows[o.window]))
        else .error .badOperand := by
  simp only [amendCommand, parseAmend_amendBlock o fits, changeable]
  rfl

/-- Settles O21: the two refusals of a window that may not change, then the merged record by its mapping and by its neighbours. -/
theorem amendInstallsTheMergedRecord : Obligations.AmendInstallsTheMergedRecord := by
  intro s r o member fits
  have short : (amendBlock o).length ≤ 24 := by rw [amendBlock_length]; decide
  obtain ⟨notOpen, frozen⟩ := changes_refused amend_runs member short o.window fun code => amendCommand_refused s o code fits
  refine ⟨notOpen, frozen, fun opened thawed => ?_⟩
  have merges := amendCommand_merges s o fits (changeRefused_of_thawed _ opened thawed)
  refine ⟨fun invalid => ?_, fun valid overlaps => ?_, fun valid clear => ?_⟩
  · rw [if_neg (mt (mappingOk_iff _).1 invalid)] at merges
    exact amend_runs.refused member short merges
  · rw [if_pos ((mappingOk_iff _).2 valid), if_pos ((blocked_iff s o.window _).2 overlaps)] at merges
    exact amend_runs.refused member short merges
  · rw [if_pos ((mappingOk_iff _).2 valid), if_neg (mt (blocked_iff s o.window _).1 clear)] at merges
    exact amend_runs.done member short merges

theorem parseRenew_renewBlock (w : WindowNumber) (n : Nat) (fits : n ≤ 65535) :
    parseRenew (byteOf w.val :: fieldOf 2 n) = .ok (w, n) := by
  have lease : fieldAt (byteOf w.val :: fieldOf 2 n) 1 2 = n := numberOf_fieldOf 2 n (by omega)
  simp only [parseRenew, windowOperand_byteOf, lease, List.length_cons, fieldOf_length, if_true]

theorem renewCommand_refused (s : State) (w : WindowNumber) (n : Nat) (code : FaultCode) (fits : n ≤ 65535)
    (refused : s.windows[w].changeRefused = some code) : renewCommand (byteOf w.val :: fieldOf 2 n) s = .error code := by
  simp only [renewCommand, parseRenew_renewBlock w n fits, refused]

theorem renewCommand_sets (s : State) (w : WindowNumber) (n : Nat) (fits : n ≤ 65535) (changeable : s.windows[w].changeRefused = none) :
    renewCommand (byteOf w.val :: fieldOf 2 n) s
      = .ok (s.setWindow w { s.windows[w] with lease := leaseOf n }, windowResult w s.windows[w]) := by
  simp only [renewCommand, parseRenew_renewBlock w n fits, changeable]

/-- Settles O22, by whether the window may change. -/
theorem renewSetsTheLease : Obligations.RenewSetsTheLease := by
  intro s r w n member fits
  have short : (byteOf w.val :: fieldOf 2 n).length ≤ 24 := by simp
  obtain ⟨notOpen, frozen⟩ := changes_refused renew_runs member short w fun code => renewCommand_refused s w n code fits
  exact ⟨notOpen, frozen, fun opened thawed =>
    renew_runs.done member short (renewCommand_sets s w n fits (changeRefused_of_thawed _ opened thawed))⟩

theorem freezeCommand_refused (s : State) (w : WindowNumber) (code : FaultCode) (refused : s.windows[w].changeRefused = some code) :
    freezeCommand [byteOf w.val] s = .error code := by
  simp only [freezeCommand, parseWindow_byteOf, refused]

theorem freezeCommand_freezes (s : State) (w : WindowNumber) (changeable : s.windows[w].changeRefused = none) :
    freezeCommand [byteOf w.val] s
      = .ok (s.setWindow w { s.windows[w] with frozen := true, lease := none },
          windowResult w s.windows[w] ++ [byteOf s.windows[w].inFlight]) := by
  simp only [freezeCommand, parseWindow_byteOf, changeable, fieldOf_one]

/-- Settles O23, by whether the window may change. -/
theorem freezeSetsTheFlag : Obligations.FreezeSetsTheFlag := by
  intro s r w member
  have short : [byteOf w.val].length ≤ 24 := by simp
  obtain ⟨notOpen, frozen⟩ := changes_refused freeze_runs member short w (freezeCommand_refused s w)
  exact ⟨notOpen, frozen, fun opened thawed =>
    freeze_runs.done member short (freezeCommand_freezes s w (changeRefused_of_thawed _ opened thawed))⟩

/-! ### CLOSE -/

theorem parseClose_closeBlock (w : WindowNumber) (b : Byte) :
    parseClose [byteOf w.val, b] = if b.toNat < 2 then .ok (w, b.getLsbD 0) else .error .badOperand := by
  simp [parseClose, windowOperand_byteOf]

theorem closeResult_eq (w : Window) : closeResult w = [byteOf w.inFlight, windowStateByte w.state] := by
  rw [windowStateByte_eq_code]; rfl

section
variable {block : List Byte} {w : WindowNumber} {abandons : Bool} (s : State)

theorem closeCommand_free (reads : parseClose block = .ok (w, abandons)) (free : s.windows[w].state = .free) :
    closeCommand block s = .error .notOpen := by
  simp only [closeCommand, reads, if_pos free]

theorem closeCommand_frozen (reads : parseClose block = .ok (w, abandons)) (used : s.windows[w].state ≠ .free)
    (frozen : s.windows[w].frozen = true) : closeCommand block s = .error .frozen := by
  simp only [closeCommand, reads, if_neg used, if_pos frozen]

/-- CLOSE with ABANDON of a window that is not frozen is the abandonment (R39, R40). -/
theorem closeCommand_abandons (reads : parseClose block = .ok (w, true)) (used : s.windows[w].state ≠ .free)
    (thawed : s.windows[w].frozen = false) :
    closeCommand block s = .ok (s.abandon w, closeResult (s.abandon w).windows[w]) := by
  simp only [closeCommand, reads, if_neg used, thawed, Bool.false_eq_true, if_false, if_true]

/-- CLOSE of an OPEN window that is not frozen starts its drain (R38). -/
theorem closeCommand_drains (reads : parseClose block = .ok (w, false)) (opened : s.windows[w].state = .opened)
    (thawed : s.windows[w].frozen = false) :
    closeCommand block s
      = .ok ((s.setWindow w (s.windows[w].closed .closed)).settle w,
          closeResult ((s.setWindow w (s.windows[w].closed .closed)).settle w).windows[w]) := by
  have used : s.windows[w].state ≠ .free := by rw [opened]; decide
  simp only [closeCommand, reads, if_neg used, thawed, if_pos opened, Bool.false_eq_true, if_false]

/-- CLOSE of a CLOSING window only reports (R38). -/
theorem closeCommand_reports (reads : parseClose block = .ok (w, false)) (closing : s.windows[w].state = .closing)
    (thawed : s.windows[w].frozen = false) : closeCommand block s = .ok (s, closeResult s.windows[w]) := by
  have used : s.windows[w].state ≠ .free := by rw [closing]; decide
  have shut : s.windows[w].state ≠ .opened := by rw [closing]; decide
  simp only [closeCommand, reads, if_neg used, thawed, if_neg shut, Bool.false_eq_true, if_false]

end

/-- Settles O24: CLOSE by the state of the window and its in-flight count, CLOSE with ABANDON by the state alone. -/
theorem closeStartsTheDrain : Obligations.CloseStartsTheDrain := by
  refine ⟨fun s r w member => ?_, fun s r w member => ?_⟩
  · have reads : parseClose [byteOf w.val, 0x00] = .ok (w, false) := parseClose_closeBlock w 0x00
    have short : [byteOf w.val, 0x00].length ≤ 24 := by simp
    refine ⟨fun free => ?_, fun used frozen => ?_, fun closing thawed => ?_, fun opened thawed busy => ?_, fun opened thawed empty => ?_⟩
    · exact close_runs.refused member short (closeCommand_free s reads free)
    · exact close_runs.refused member short (closeCommand_frozen s reads used frozen)
    · rw [close_runs.done member short (closeCommand_reports s reads closing thawed), closeResult_eq, closing]; rfl
    · have drains := closeCommand_drains s reads opened thawed
      rw [setWindow_settle_in_flight s w (s.windows[w].closed .closed) busy, window_after_set, if_pos rfl] at drains
      exact close_runs.done member short drains
    · have drains := closeCommand_drains s reads opened thawed
      rw [setWindow_settle_retires s w (s.windows[w].closed .closed) rfl empty, State.raise_windows, window_after_set, if_pos rfl,
        closeResult_eq] at drains
      rw [close_runs.done member short drains]
      dsimp only [Window.closed]
      rw [empty]; rfl
  · have reads : parseClose [byteOf w.val, 0x01] = .ok (w, true) := parseClose_closeBlock w 0x01
    have short : [byteOf w.val, 0x01].length ≤ 24 := by simp
    refine ⟨fun free => ?_, fun used frozen => ?_, fun used thawed => ?_⟩
    · exact closeWithAbandon_runs.refused member short (closeCommand_free s reads free)
    · exact closeWithAbandon_runs.refused member short (closeCommand_frozen s reads used frozen)
    · rw [closeWithAbandon_runs.done member short (closeCommand_abandons s reads used thawed), closeResult_eq]

/-! ### Abandonment -/

theorem takenByAbandonment_eq (s : State) (r : Route) : takenByAbandonment s r = s.abandons r := by
  funext i
  cases i <;> rfl

theorem lostTo_eq (s : State) (r : Route) (n : SegmentNumber) : lostTo s r n = s.abandonedPosted r n :=
  (filter_postedItems s.engines[n].queue r).symm

theorem abandonItems_notices (s : State) (r : Route) :
    (s.abandonItems r).notices = allSegments.foldl (fun u n => lostNotice n .abandoned (s.abandonedPosted r n) u) s.notices := by
  rw [abandonItems_eq, State.setNotices_notices, foldl_completeEntry_eq]
  rfl

/-- The part of the state that an abandonment of items does not reach. -/
theorem abandonItems_frame (s : State) (r : Route) :
    ∃ entries engines notices, s.abandonItems r = { s with entries, engines, notices } := by
  rw [abandonItems_eq, foldl_completeEntry_eq]
  exact ⟨_, _, _, rfl⟩

theorem abandonedCount_eq (s : State) (r : Route) :
    s.abandonedCount r = (lostTo s r 0).length + (lostTo s r 1).length + (lostTo s r 2).length + (lostTo s r 3).length := by
  have total : s.abandonedCount r = ∑ n : SegmentNumber, (lostTo s r n).length := by
    simp only [lostTo_eq]
    rw [Fin.sum_univ_def]
    rfl
  rw [total, Fin.sum_univ_four]

/-- An abandonment whole: the window's items, and then the fall of its count (R40–R42, R44). -/
theorem abandon_eq (s : State) (w : WindowNumber) (k : Nat) (count : s.abandonedCount (s.routeOf w) = k) :
    let items := (s.setWindow w (s.windows[w].closed .abandoned)).abandonItems (s.routeOf w)
    s.abandon w = (items.setWindow w (lowered (s.windows[w].closed .abandoned) k)).setNotices
      (retiredNotice w (s.windows[w].closed .abandoned) k items.notices) := by
  intro items
  have record : items.windows[w] = s.windows[w].closed .abandoned := by
    rw [abandonItems_windows, window_after_set, if_pos rfl]
  have falls := lower_eq items w k
  rw [record] at falls
  rw [← falls, ← count]
  rfl

/-- Settles O25: the entries, the lists and the notices by what `abandonItems` leaves, the window by the fall of its count. -/
theorem abandonmentFinishesUnstartedWork : Obligations.AbandonmentFinishesUnstartedWork := by
  intro s w route closed removed
  have whole := abandon_eq s w removed (abandonedCount_eq s route)
  dsimp only at whole
  rw [whole]
  refine ⟨fun slot => ?_, fun n => ?_, ?_, fun v other => ?_, ?_, ?_⟩
  · have entry := abandonItems_entry (s.setWindow w closed) route slot
    simp only [Entry.abandonedBy, decide_eq_true_eq] at entry
    exact entry
  · rw [takenByAbandonment_eq]
    exact abandonItems_engine (s.setWindow w closed) route n
  · rw [State.setNotices_windows, window_after_set, if_pos rfl]
    rfl
  · rw [State.setNotices_windows, window_after_set, if_neg other, abandonItems_windows, window_after_set, if_neg other]
  · simp only [lostTo_eq]
    exact congrArg (retiredNotice w closed removed) (abandonItems_notices (s.setWindow w closed) route)
  · obtain ⟨entries, engines, notices, items⟩ := abandonItems_frame (s.setWindow w (s.windows[w].closed .abandoned)) (s.routeOf w)
    rw [items]
    exact ⟨_, entries, engines, _, rfl⟩

/-! ### QUERY -/

theorem ownerPlaces_eq (owners : List Requester) : ownerPlaces owners = ownerField owners := by
  match owners with
  | [] => rfl
  | [_] => rfl
  | [_, _] => rfl
  | [_, _, _] => rfl
  | _ :: _ :: _ :: _ :: _ => rfl

theorem flags_eq (w : Window) : w.flags = byteOf ((if w.frozen then 1 else 0) + (if w.lease.isSome then 2 else 0)) := by
  unfold Window.flags
  cases w.frozen <;> cases w.lease.isSome <;> rfl

theorem unitsLeft_eq (t : Option Timer) : unitsLeft t = (t.map Timer.units).getD 0 := by
  cases t <;> rfl

theorem queryResult_free (w : Window) (free : w.state = .free) : queryResult w = [0x00, w.generation] := by
  rw [queryResult, if_pos free, free]
  rfl

/-- The report on an OPEN or CLOSING window, in the bytes of R176. -/
theorem queryResult_used (w : Window) (used : w.state ≠ .free) :
    queryResult w
      = [windowStateByte w.state, w.generation, spaceByte w.space, byteOf w.segment.val, writePolicyByte w.writePolicy,
          absentPolicyByte w.absentPolicy, byteOf ((if w.frozen then 1 else 0) + (if w.lease.isSome then 2 else 0)),
          if w.state = .closing then retireByte w.retireReason else 0x00, byteOf w.owners.length]
        ++ ownerField w.owners ++ [byteOf w.inFlight] ++ fieldOf 2 ((w.lease.map Timer.units).getD 0) ++ fieldOf 4 w.base
        ++ fieldOf 4 w.limit ++ fieldOf 4 w.segmentBase := by
  rw [queryResult, if_neg used, windowStateByte_eq_code, spaceByte_eq_code, writePolicyByte_eq_code, absentPolicyByte_eq_code,
    retireByte_eq_code, ← flags_eq, ← ownerPlaces_eq, ← unitsLeft_eq]
  rfl

theorem queryCommand_reports (s : State) (w : WindowNumber) : queryCommand [byteOf w.val] s = .ok (s, queryResult s.windows[w]) := by
  simp only [queryCommand, parseWindow_byteOf]

/-! ### LOOKUP -/

theorem parseLookup_lookupBlock (space : Space) (address : Nat) (fits : address ≤ 0xFFFFFFFF) (io : space = .io → address ≤ 0xFFFF) :
    parseLookup (spaceByte space :: fieldOf 4 address) = .ok (space, address) := by
  have code : Space.ofCode (spaceByte space) = some space := by rw [spaceByte_eq_code, Space.ofCode_code]
  have field : fieldAt (spaceByte space :: fieldOf 4 address) 1 4 = address := numberOf_fieldOf 4 address (by omega)
  unfold parseLookup
  rw [List.length_cons, fieldOf_length, byteAt_zero, code, field]
  cases space with
  | memory => rfl
  | io => exact if_pos (io rfl)

theorem lookupCommand_reports (s : State) (space : Space) (address : Nat) (fits : address ≤ 0xFFFFFFFF)
    (io : space = .io → address ≤ 0xFFFF) :
    lookupCommand (spaceByte space :: fieldOf 4 address) s = .ok (s, s.lookupResult space address) := by
  simp only [lookupCommand, parseLookup_lookupBlock space address fits io]

/-- An ask at an address: the words of R9 speak of asks, and a lookup asks for an address alone. -/
def askAt (space : Space) (address : Nat) : Ask := ⟨0, .read, space, address, 1, none⟩

theorem lookupResult_of_hits (s : State) (space : Space) (address : Nat) (w : WindowNumber) (ok : WindowTableOk s)
    (hits : Hits s (askAt space address) w) :
    s.lookupResult space address
      = [0x01, byteOf w.val, windowStateByte s.windows[w].state, s.windows[w].generation, if s.windows[w].frozen then 0x01 else 0x00] := by
  have hit : s.hit space address = some w := hit_of_hits s (askAt space address) w ok hits
  simp only [State.lookupResult, hit, windowStateByte_eq_code]
  cases s.windows[w].frozen <;> rfl

section
variable (s : State) (space : Space) (address : Nat) (misses : Misses s (askAt space address))
include misses

/-- A lookup that hits no window reports the default route of its space, for an address that the segment has (R47). -/
theorem lookupResult_of_route (n : SegmentNumber) (route : routeSetting s.settings space = some n)
    (inside : address ≤ addressMaximum space) : s.lookupResult space address = [0x02, byteOf n.val, 0x00, 0x00, 0x00] := by
  have hit : s.hit space address = none := hit_of_misses s (askAt space address) misses
  simp only [State.lookupResult, hit, defaultRoute_eq, segmentMaximum_eq, route]
  exact if_pos inside

theorem lookupResult_of_nothing (nothing : routeSetting s.settings space = none ∨ addressMaximum space < address) :
    s.lookupResult space address = [0x00, 0x00, 0x00, 0x00, 0x00] := by
  have hit : s.hit space address = none := hit_of_misses s (askAt space address) misses
  simp only [State.lookupResult, hit, defaultRoute_eq, segmentMaximum_eq]
  rcases nothing with none | above
  · rw [none]
  · cases routeSetting s.settings space with
    | none => rfl
    | some n => exact if_neg (Nat.not_le.2 above)

end

/-- Settles O27: QUERY by the state of the window, LOOKUP by whether the address hits a window, and then by the default route. -/
theorem queryAndLookupReport : Obligations.QueryAndLookupReport := by
  intro s r member
  refine ⟨fun w free => ?_, fun w used _ => ?_, fun space address fits io => ?_⟩
  · rw [query_runs.done member (by simp) (queryCommand_reports s w), queryResult_free _ free]
  · rw [query_runs.done member (by simp) (queryCommand_reports s w), queryResult_used _ used]
  · have short : (spaceByte space :: fieldOf 4 address).length ≤ 24 := by simp
    rw [lookup_runs.done member short (lookupCommand_reports s space address fits io)]
    refine ⟨fun w ok used inSpace above below => ?_, fun misses => ⟨fun n route inside => ?_, fun nothing => ?_⟩⟩
    · rw [lookupResult_of_hits s space address w ok ⟨used, inSpace, above, below⟩]
    · rw [lookupResult_of_route s space address misses n route inside]
    · rw [lookupResult_of_nothing s space address misses nothing]

end Sys2Proof.Proofs.Lifetime

/-! SUPPORT. The checks of R175 on an operand block, made once for each command: its length, its window number, and its fields. -/

namespace Sys2Proof.Proofs.OperandBlocks

open Sys2Proof Sys2Proof.Machine Sys2Proof.Safety Sys2Proof.Proofs.Rows Sys2Proof.Proofs.Lifetime

/-! ### The window number -/

/-- A reader of operand byte 0 that checks it as R175 orders: the empty block, then the window number. -/
structure ReadsWindow {α : Type} (code : Byte) (front : List Byte → Except FaultCode α) : Prop where
  empty : front [] = .error .badOperand
  outside : ∀ block, block ≠ [] → ¬ WindowByteOk code block → front block = .error .badWindow
  inside : ∀ block, WindowByteOk code block → ∃ w, front block = .ok w

theorem windowOf_some (b : Byte) (h : b.toNat ≤ 47) : ∃ w, windowOf b = some w :=
  Option.ne_none_iff_exists'.1 fun none => absurd ((windowOf_none b).1 none) (by omega)

theorem windowByteOk_cons (code b : Byte) (rest : List Byte) : WindowByteOk code (b :: rest) ↔ b.toNat ≤ 47 ∨ code = 0x10 ∧ b = 0xFF := by
  simp [WindowByteOk]

theorem windowOperand_readsWindow (code : Byte) (other : code ≠ 0x10) : ReadsWindow code windowOperand where
  empty := rfl
  outside
    | [], filled, _ => absurd rfl filled
    | b :: rest, _, bad => by
      rw [windowByteOk_cons, not_or] at bad
      simp only [windowOperand, (windowOf_none b).2 (by omega)]
  inside
    | [], ok => absurd ok (by simp)
    | b :: rest, ok => by
      obtain ⟨w, found⟩ := windowOf_some b (((windowByteOk_cons code b rest).1 ok).resolve_right fun any => other any.1)
      exact ⟨w, by simp only [windowOperand, found]⟩

/-- OPEN's reader takes FFh as ANY beside the window numbers. -/
theorem openWindowOperand_readsWindow : ReadsWindow 0x10 openWindowOperand where
  empty := rfl
  outside
    | [], filled, _ => absurd rfl filled
    | b :: rest, _, bad => by
      rw [windowByteOk_cons, not_or] at bad
      obtain ⟨above, named⟩ := bad
      have notAny : b ≠ 0xFF := fun any => named ⟨rfl, any⟩
      simp only [openWindowOperand, if_neg notAny, (windowOf_none b).2 (by omega)]
  inside
    | [], ok => absurd ok (by simp)
    | b :: rest, ok => by
      by_cases any : b = 0xFF
      · exact ⟨none, if_pos any⟩
      · obtain ⟨w, found⟩ := windowOf_some b (((windowByteOk_cons _ b rest).1 ok).resolve_right fun h => any h.2)
        exact ⟨some w, by simp only [openWindowOperand, if_neg any, found]⟩

/-! ### Length and window number of every command -/

/-- A command checks the shape of its block: the window number where it has one, and then the length. -/
structure ChecksShape (code : Byte) (length : Nat) (windowed : Bool) (c : List Byte → Command) : Prop where
  runs : RunsCommand code c
  window : ∀ block s, windowed = true → block ≠ [] → ¬ WindowByteOk code block → c block s = .error .badWindow
  length : ∀ block s, block.length ≠ length → (windowed = true → block = [] ∨ WindowByteOk code block) →
    c block s = .error .badOperand

/-- A command without a window number checks the length alone. -/
theorem checksShape_of_length {code : Byte} {length : Nat} {c : List Byte → Command} (runs : RunsCommand code c)
    (wrong : ∀ block s, block.length ≠ length → c block s = .error .badOperand) : ChecksShape code length false c where
  runs := runs
  window _ _ windowed := nomatch windowed
  length block s h _ := wrong block s h

/-- A command that names a window reads the number first and checks the length then. -/
theorem checksShape_of_window {α : Type} {code : Byte} {length : Nat} {c : List Byte → Command} {front : List Byte → Except FaultCode α}
    (runs : RunsCommand code c) (reads : ReadsWindow code front)
    (refuses : ∀ block s e, front block = .error e → c block s = .error e)
    (wrong : ∀ block s w, front block = .ok w → block.length ≠ length → c block s = .error .badOperand) :
    ChecksShape code length true c where
  runs := runs
  window block s _ filled bad := refuses block s _ (reads.outside block filled bad)
  length block s long named := by
    rcases named rfl with rfl | ok
    · exact refuses [] s _ reads.empty
    · obtain ⟨w, read⟩ := reads.inside block ok
      exact wrong block s w read long

theorem ne_nil_of_length {block : List Byte} (h : block.length ≠ 0) : block ≠ [] := fun e => h (e ▸ rfl)

theorem parseSegment_length (block : List Byte) (h : block.length ≠ 1) : parseSegment block = .error .badOperand := if_neg h

/-- Each command code of R175 runs a command that checks the shape of R176–R178. -/
theorem checksShape_of_mem {code : Byte} {length : Nat} {windowed : Bool} (listed : (code, length, windowed) ∈ operandLengths) :
    ∃ c, ChecksShape code length windowed c := by
  simp only [operandLengths, List.mem_cons, Prod.mk.injEq, List.not_mem_nil, or_false] at listed
  rcases listed with ⟨rfl, rfl, rfl⟩ | ⟨rfl, rfl, rfl⟩ | ⟨rfl, rfl, rfl⟩ | ⟨rfl, rfl, rfl⟩ | ⟨rfl, rfl, rfl⟩ | ⟨rfl, rfl, rfl⟩
    | ⟨rfl, rfl, rfl⟩ | ⟨rfl, rfl, rfl⟩ | ⟨rfl, rfl, rfl⟩ | ⟨rfl, rfl, rfl⟩ | ⟨rfl, rfl, rfl⟩ | ⟨rfl, rfl, rfl⟩ | ⟨rfl, rfl, rfl⟩
    | ⟨rfl, rfl, rfl⟩ | ⟨rfl, rfl, rfl⟩ | ⟨rfl, rfl, rfl⟩ | ⟨rfl, rfl, rfl⟩ | ⟨rfl, rfl, rfl⟩ | ⟨rfl, rfl, rfl⟩ | ⟨rfl, rfl, rfl⟩
  · exact ⟨_, checksShape_of_window runs_10h openWindowOperand_readsWindow
      (fun block s e h => by simp only [openCommand, parseOpen, h])
      fun block s w h long => by simp only [openCommand, parseOpen, h, if_neg long]⟩
  · exact ⟨_, checksShape_of_window runs_11h (windowOperand_readsWindow _ (by decide))
      (fun block s e h => by simp only [amendCommand, parseAmend, h])
      fun block s w h long => by simp only [amendCommand, parseAmend, h, long, false_and, if_false]⟩
  · exact ⟨_, checksShape_of_window runs_12h (windowOperand_readsWindow _ (by decide))
      (fun block s e h => by simp only [renewCommand, parseRenew, h])
      fun block s w h long => by simp only [renewCommand, parseRenew, h, if_neg long]⟩
  · exact ⟨_, checksShape_of_window runs_13h (windowOperand_readsWindow _ (by decide))
      (fun block s e h => by simp only [freezeCommand, parseWindow, h])
      fun block s w h long => by simp only [freezeCommand, parseWindow, h, if_neg long]⟩
  · exact ⟨_, checksShape_of_window runs_14h (windowOperand_readsWindow _ (by decide))
      (fun block s e h => by simp only [closeCommand, parseClose, h])
      fun block s w h long => by simp only [closeCommand, parseClose, h, long, false_and, if_false]⟩
  · exact ⟨_, checksShape_of_window runs_15h (windowOperand_readsWindow _ (by decide))
      (fun block s e h => by simp only [queryCommand, parseWindow, h])
      fun block s w h long => by simp only [queryCommand, parseWindow, h, if_neg long]⟩
  · exact ⟨_, checksShape_of_length runs_16h fun block s h => by simp only [lookupCommand, parseLookup, if_neg h]⟩
  · exact ⟨_, checksShape_of_length runs_20h fun block s h => by simp only [bringOnlineCommand, parseSegment_length block h]⟩
  · exact ⟨_, checksShape_of_length runs_21h fun block s h => by simp only [takeOfflineCommand, parseSegment_length block h]⟩
  · exact ⟨_, checksShape_of_length runs_22h fun block s h => by simp only [resumeCommand, parseSegment_length block h]⟩
  · exact ⟨_, checksShape_of_length runs_23h fun block s h => by simp only [resetSegmentCommand, parseSegment_length block h]⟩
  · exact ⟨_, checksShape_of_length runs_24h fun block s h => by simp only [segmentStatusCommand, parseSegment_length block h]⟩
  · exact ⟨_, checksShape_of_length runs_30h fun block s h => by simp only [pendingStatusCommand, parsePendingStatus, if_neg h]⟩
  · exact ⟨_, checksShape_of_length runs_31h fun block s h => by simp only [cancelRequesterCommand, parseRequester, if_neg h]⟩
  · exact ⟨_, checksShape_of_length runs_40h fun block s h => if_neg (ne_nil_of_length h)⟩
  · exact ⟨_, checksShape_of_length runs_41h fun block s h => if_neg (ne_nil_of_length h)⟩
  · exact ⟨_, checksShape_of_length runs_50h fun block s h => if_neg h⟩
  · exact ⟨_, checksShape_of_length runs_51h fun block s h => if_neg h⟩
  · exact ⟨_, checksShape_of_length runs_52h fun block s h => if_neg (ne_nil_of_length h)⟩
  · exact ⟨_, checksShape_of_length runs_53h fun block s h => if_neg (ne_nil_of_length h)⟩

/-- Settles O48: the command that the code runs refuses the block. -/
theorem operandBlocksOfTheWrongShape : Obligations.OperandBlocksOfTheWrongShape := by
  intro s r code length windowed block member listed short
  obtain ⟨c, shape⟩ := checksShape_of_mem listed
  have runs := rowRuns_ofCommandCode shape.runs
  exact ⟨fun names filled bad => runs.refused member short (shape.window block s names filled bad),
    fun long named => runs.refused member short (shape.length block s long named)⟩

/-! ### Fields outside their encodings -/

/-- Past the window number OPEN's reader refuses with one code only. -/
theorem parseOpen_error (block : List Byte) (window : Option WindowNumber) (code : FaultCode)
    (read : openWindowOperand block = .ok window) (refused : parseOpen block = .error code) : code = .badOperand := by
  unfold parseOpen at refused
  rw [read] at refused
  dsimp only at refused
  split at refused
  · split at refused
    · cases refused
    · cases refused; rfl
  · cases refused; rfl

/-- Past the window number AMEND's reader refuses with one code only. -/
theorem parseAmend_error (block : List Byte) (w : WindowNumber) (code : FaultCode) (read : windowOperand block = .ok w)
    (refused : parseAmend block = .error code) : code = .badOperand := by
  unfold parseAmend at refused
  rw [read] at refused
  dsimp only at refused
  split at refused
  · split at refused
    · cases refused
    · cases refused; rfl
  · cases refused; rfl

theorem openCommand_not_encoded (block : List Byte) (s : State) (named : WindowByteOk 0x10 block)
    (stray : ∀ o, OpenEncodable o → block ≠ openBlock o) : openCommand block s = .error .badOperand := by
  obtain ⟨window, read⟩ := openWindowOperand_readsWindow.inside block named
  cases parsed : parseOpen block with
  | ok o =>
    obtain ⟨fits, written⟩ := parseOpen_ok block o parsed
    exact absurd written (stray o fits)
  | error code =>
    obtain rfl := parseOpen_error block window code read parsed
    simp only [openCommand, parsed]

theorem amendCommand_not_encoded (block : List Byte) (s : State) (named : WindowByteOk 0x11 block)
    (stray : ∀ o, AmendEncodable o → block ≠ amendBlock o) : amendCommand block s = .error .badOperand := by
  obtain ⟨w, read⟩ := (windowOperand_readsWindow 0x11 (by decide)).inside block named
  cases parsed : parseAmend block with
  | ok o =>
    obtain ⟨fits, written⟩ := parseAmend_ok block o parsed
    exact absurd written (stray o fits)
  | error code =>
    obtain rfl := parseAmend_error block w code read parsed
    simp only [amendCommand, parsed]

/-- Bits 7:1 of CLOSE's byte 1 are zero (R176). -/
theorem closeCommand_not_encoded (w : WindowNumber) (b : Byte) (s : State) (stray : 2 ≤ b.toNat) :
    closeCommand [byteOf w.val, b] s = .error .badOperand := by
  simp only [closeCommand, parseClose_closeBlock, if_neg (Nat.not_lt.2 stray)]

theorem space_ofCode_none (b : Byte) (stray : 2 ≤ b.toNat) : Space.ofCode b = none := by
  have notMemory : b ≠ 0x00 := by rintro rfl; exact absurd stray (by decide)
  have notIo : b ≠ 0x01 := by rintro rfl; exact absurd stray (by decide)
  simp only [Space.ofCode, if_neg notMemory, if_neg notIo]

/-- LOOKUP is refused for a code of no space, and in IO for an address past its end (R47). -/
theorem lookupCommand_not_encoded (b : Byte) (address : Nat) (s : State) (fits : address ≤ 0xFFFFFFFF)
    (stray : 2 ≤ b.toNat ∨ b = 0x01 ∧ 0x10000 ≤ address) : lookupCommand (b :: fieldOf 4 address) s = .error .badOperand := by
  have field : fieldAt (b :: fieldOf 4 address) 1 4 = address := numberOf_fieldOf 4 address (by omega)
  have length : (b :: fieldOf 4 address).length = 5 := by simp
  simp only [lookupCommand, parseLookup, if_pos length, byteAt_zero, field]
  rcases stray with code | ⟨rfl, past⟩
  · rw [space_ofCode_none b code]
  · have io : Space.ofCode 0x01 = some .io := rfl
    have outside : ¬ address ≤ 0xFFFF := by omega
    simp only [io, if_neg outside]

theorem parseSegment_not_encoded (b : Byte) (stray : 4 ≤ b.toNat) : parseSegment [b] = .error .badOperand := by
  have noSegment : segmentOf (byteAt [b] 0) = none := (segmentOf_none b).2 stray
  simp only [parseSegment, noSegment]
  rfl

theorem pendingStatusCommand_not_encoded (b : Byte) (s : State) (stray : 16 ≤ b.toNat) (slot : b ≠ 0xFF) :
    pendingStatusCommand [b] s = .error .badOperand := by
  have noSlot : slotOf b = none := (slotOf_none b).2 stray
  have parsed : parsePendingStatus [b] = .error .badOperand := by
    unfold parsePendingStatus
    rw [if_pos List.length_singleton, byteAt_zero, if_neg slot, noSlot]
  simp only [pendingStatusCommand, parsed]

theorem cancelRequesterCommand_not_encoded (b : Byte) (s : State) (stray : 32 ≤ b.toNat) :
    cancelRequesterCommand [b] s = .error .badOperand := by
  have noRequester : requesterOperand (byteAt [b] 0) = none := (requesterOperand_none b).2 stray
  have parsed : parseRequester [b] = .error .badOperand := by
    simp only [parseRequester, List.length_singleton, if_true, noRequester]
  simp only [cancelRequesterCommand, parsed]

/-- WRITE-SETTING is refused for the code and segment of no setting, and NOTICE-TARGET for the number of no requester (R178). -/
theorem writeSettingCommand_not_encoded (code segment : Byte) (value : Nat) (s : State) (fits : value ≤ 0xFFFFFFFF)
    (stray : (∀ name, settingCode name ≠ (code, segment))
      ∨ code = 0x07 ∧ segment = 0x00 ∧ 32 ≤ value ∧ value ≠ 0xFFFFFFFF) :
    writeSettingCommand ([code, segment] ++ fieldOf 4 value) s = .error .badOperand := by
  have field : fieldAt ([code, segment] ++ fieldOf 4 value) 2 4 = value := numberOf_fieldOf 4 value (by omega)
  have length : ([code, segment] ++ fieldOf 4 value).length = 6 := by simp
  have code_byte : byteAt ([code, segment] ++ fieldOf 4 value) 0 = code := rfl
  have segment_byte : byteAt ([code, segment] ++ fieldOf 4 value) 1 = segment := rfl
  simp only [writeSettingCommand, if_pos length, code_byte, segment_byte, field]
  rcases stray with unnamed | ⟨rfl, rfl, above, notNone⟩
  · rw [(ofCode_none_iff code segment).1 unnamed]
  · have name : SettingName.ofCode 0x07 0x00 = some .noticeTarget := rfl
    have refused : s.settings.write .noticeTarget value = none :=
      write_refused s.settings .noticeTarget value fun admitted => admitted.elim (by omega) notNone
    simp only [name, refused]

/-- Settles O49: command by command, each from the reader of its block. -/
theorem operandFieldsOutsideTheirEncodings : Obligations.OperandFieldsOutsideTheirEncodings := by
  refine ⟨fun s r block member => ⟨fun long named stray => ?_, fun long named stray => ?_, fun w b stray => ?_,
    fun b address fits stray => ?_, fun b stray => ?_, fun b stray slot => ?_, fun b stray => ?_⟩,
    fun s r code segment value member fits stray => ?_⟩
  · exact openWindow_runs.refused member long.le (openCommand_not_encoded block s named stray)
  · exact amend_runs.refused member (long.trans_le (by decide)) (amendCommand_not_encoded block s named stray)
  · have refused := closeCommand_not_encoded w b s stray
    exact ⟨close_runs.refused member (by simp) refused, closeWithAbandon_runs.refused member (by simp) refused⟩
  · exact lookup_runs.refused member (by simp) (lookupCommand_not_encoded b address s fits stray)
  · have parsed := parseSegment_not_encoded b stray
    have short : [b].length ≤ 24 := by simp
    exact ⟨(rowRuns_ofCommandCode runs_20h).refused member short (by simp only [bringOnlineCommand, parsed]),
      (rowRuns_ofCommandCode runs_21h).refused member short (by simp only [takeOfflineCommand, parsed]),
      (rowRuns_ofCommandCode runs_22h).refused member short (by simp only [resumeCommand, parsed]),
      (rowRuns_ofCommandCode runs_23h).refused member short (by simp only [resetSegmentCommand, parsed]),
      (rowRuns_ofCommandCode runs_24h).refused member short (by simp only [segmentStatusCommand, parsed])⟩
  · exact (rowRuns_ofCommandCode runs_30h).refused member (by simp) (pendingStatusCommand_not_encoded b s stray slot)
  · exact (rowRuns_ofCommandCode runs_31h).refused member (by simp) (cancelRequesterCommand_not_encoded b s stray)
  · exact (rowRuns_ofCommandCode runs_51h).refused member (by simp) (writeSettingCommand_not_encoded code segment value s fits stray)

end Sys2Proof.Proofs.OperandBlocks

/-! SUPPORT. What each command leaves of the Upstream Port (R48–R51): the pins, the state of the port, the answers in answer order and
what has left it. -/

namespace Sys2Proof.Proofs.Frames

open Sys2Proof Sys2Proof.Machine Sys2Proof.Safety Sys2Proof.Proofs.Effects Sys2Proof.Proofs.Engines Sys2Proof.Proofs.Lifetime

/-- Two states agree in the pins, the state of the port, the answers and what has left. -/
structure SamePort (s t : State) : Prop where
  power : t.power = s.power
  warmN : t.warmN = s.warmN
  port : t.port = s.port
  answers : t.answers = s.answers
  link : t.link = s.link

theorem SamePort.refl (s : State) : SamePort s s := ⟨rfl, rfl, rfl, rfl, rfl⟩

theorem SamePort.trans {s t u : State} (h : SamePort s t) (k : SamePort t u) : SamePort s u :=
  ⟨k.power.trans h.power, k.warmN.trans h.warmN, k.port.trans h.port, k.answers.trans h.answers, k.link.trans h.link⟩

theorem samePort_of_sameButWindows {s t : State} (h : SameButWindows s t) : SamePort s t :=
  ⟨h.power, h.warmN, h.port, h.answers, h.link⟩

/-! ### Writes of one record -/

theorem samePort_setWindow (s : State) (w : WindowNumber) (r : Window) : SamePort s (s.setWindow w r) := ⟨rfl, rfl, rfl, rfl, rfl⟩

theorem samePort_setEntry (s : State) (slot : Slot) (e : Entry) : SamePort s (s.setEntry slot e) := ⟨rfl, rfl, rfl, rfl, rfl⟩

theorem samePort_setEngine (s : State) (n : SegmentNumber) (e : Engine) : SamePort s (s.setEngine n e) := ⟨rfl, rfl, rfl, rfl, rfl⟩

theorem samePort_setNotices (s : State) (u : NoticeUnit) : SamePort s (s.setNotices u) := ⟨rfl, rfl, rfl, rfl, rfl⟩

theorem samePort_raise (s : State) (news : News) (n : Nat) : SamePort s (s.raise news n) := ⟨rfl, rfl, rfl, rfl, rfl⟩

theorem samePort_lowerRoute (s : State) (r : Route) : SamePort s (s.lowerRoute r) := samePort_of_sameButWindows (lowerRoute_frame s r)

theorem samePort_lowerRoutes (s : State) (routes : List Route) : SamePort s (s.lowerRoutes routes) :=
  samePort_of_sameButWindows (lowerRoutes_frame s routes)

/-! ### The shared operations -/

theorem samePort_endEntry (s : State) (slot : Slot) : SamePort s (s.endEntry slot) :=
  (samePort_setEntry s slot _).trans (samePort_lowerRoute _ _)

theorem samePort_enqueue (s : State) (n : SegmentNumber) (i : Item) : SamePort s (s.enqueue n i) := samePort_setEngine s n _

theorem samePort_accept (s : State) (x : HandOff) : SamePort s (s.accept x).1 := by
  have raised (t : State) : SamePort t (t.raiseRoute x.route) := samePort_of_sameButWindows (raiseRoute_frame t x.route)
  rcases accept_cases s x with refused | ⟨-, posted⟩ | ⟨slot, -, pending⟩
  · rw [refused]; exact .refl s
  · rw [posted]; exact (samePort_enqueue s _ _).trans (raised _)
  · rw [pending]; exact ((samePort_setEntry s slot _).trans (samePort_enqueue _ _ _)).trans (raised _)

theorem samePort_abandon (s : State) (w : WindowNumber) : SamePort s (s.abandon w) := by
  obtain ⟨entries, engines, notices, items⟩ := abandonItems_frame (s.setWindow w (s.windows[w].closed .abandoned)) (s.routeOf w)
  have before : SamePort s ((s.setWindow w (s.windows[w].closed .abandoned)).abandonItems (s.routeOf w)) := by
    rw [items]; exact ⟨rfl, rfl, rfl, rfl, rfl⟩
  exact before.trans (samePort_of_sameButWindows (lower_frame _ w _))

theorem samePort_cancelEntries (s : State) (r : Requester) : SamePort s (s.cancelEntries r) := by
  unfold State.cancelEntries; exact ⟨rfl, rfl, rfl, rfl, rfl⟩

theorem samePort_withdraw (s : State) (gone : Item → Bool) : SamePort s (s.withdraw gone) := by
  unfold State.withdraw; exact ⟨rfl, rfl, rfl, rfl, rfl⟩

theorem samePort_cancel (s : State) (r : Requester) : SamePort s (s.cancel r) :=
  ((samePort_cancelEntries s r).trans (samePort_withdraw _ (s.cancels r))).trans (samePort_lowerRoutes _ (s.cancelledRoutes r))

theorem samePort_resetSegment (s : State) (n : SegmentNumber) : SamePort s (s.resetSegment n) := by
  obtain ⟨notices, reset⟩ := resetSegment_eq s n
  rw [reset]
  have ended : SamePort s { s with entries := ((referencedSlots s.engines[n].items).foldl State.resetEntry s).entries } :=
    ⟨rfl, rfl, rfl, rfl, rfl⟩
  exact ((ended.trans (samePort_setEngine _ n _)).trans (samePort_setNotices _ notices)).trans
    (samePort_lowerRoutes _ (s.endedRoutes n))

/-! ### Items and cycles -/

theorem samePort_startCycle (s : State) (n : SegmentNumber) (e : Engine) (cycles : List Cycle) :
    SamePort s (s.startCycle n e cycles) := by
  rw [startCycle_eq]; exact ⟨rfl, rfl, rfl, rfl, rfl⟩

theorem samePort_issue (s : State) (i : Item) : SamePort s (s.issue i) := by
  cases i
  case posted p => exact .refl s
  case reference slot => exact samePort_setEntry s slot _

theorem samePort_takeHead (s : State) (n : SegmentNumber) : SamePort s (s.takeHead n) := by
  unfold State.takeHead
  dsimp only
  split
  · split
    · exact .refl s
    · exact (samePort_startCycle s n _ _).trans (samePort_issue _ _)
  · exact .refl s

theorem samePort_handBack (s : State) (n : SegmentNumber) (i : Item) (result : ItemResult) (kept : List Byte) :
    SamePort s (s.handBack n i result kept) := by
  unfold State.handBack
  split
  · dsimp only
    split
    · exact samePort_endEntry s _
    · exact samePort_setEntry s _ _
  · split
    · exact (samePort_raise s _ _).trans (samePort_lowerRoute _ _)
    · exact samePort_lowerRoute s _

theorem samePort_endItem (s : State) (n : SegmentNumber) (result : ItemResult) : SamePort s (s.endItem n result) := by
  unfold State.endItem
  dsimp only
  split
  · exact .refl s
  · exact (samePort_setEngine s n _).trans (samePort_handBack _ _ _ _ _)

theorem samePort_faultSegment (s : State) (n : SegmentNumber) (cause : FaultCause) : SamePort s (s.faultSegment n cause) :=
  (samePort_setEngine s n _).trans (samePort_raise _ _ _)

theorem samePort_acknowledge (s : State) (answered : CycleName) (data : BitVec 16) : SamePort s (s.acknowledge answered data) := by
  unfold State.acknowledge
  dsimp only
  split
  · exact .refl s
  · split
    · exact (samePort_setEngine s _ _).trans (samePort_endItem _ _ _)
    · exact samePort_startCycle s _ _ _

/-- The end of an item by a failing cycle: the count is written, and the engine may be faulted (R120, R121). -/
theorem samePort_failing (s : State) (n : SegmentNumber) (result : ItemResult) (count : Nat) (cause : FaultCause) (c : Prop) [Decidable c] :
    SamePort s (if c then ((s.endItem n result).countNoResponses n count).faultSegment n cause
      else (s.endItem n result).countNoResponses n count) := by
  have counted : SamePort s ((s.endItem n result).countNoResponses n count) :=
    (samePort_endItem s n result).trans (samePort_setEngine _ n _)
  split
  · exact counted.trans (samePort_faultSegment _ n cause)
  · exact counted

theorem samePort_timeOut (s : State) (n : SegmentNumber) : SamePort s (s.timeOut n) := by
  unfold State.timeOut
  split
  · exact samePort_failing s n _ _ _ _
  · exact .refl s

theorem samePort_errCycle (s : State) (answered : CycleName) : SamePort s (s.errCycle answered) := by
  unfold State.errCycle
  dsimp only
  split
  · exact .refl s
  · exact samePort_failing s _ _ _ _ _

theorem samePort_sendHead (s : State) : SamePort s s.sendHead := by
  unfold State.sendHead
  split
  · exact ⟨rfl, rfl, rfl, rfl, rfl⟩
  · exact .refl s

/-! ### Every effect -/

/-- What a block may leave of the port for an ask that reaches it: all of it, or what a warm reset leaves (R167). -/
def Keeps (s t : State) : Prop := SamePort s t ∨ t = s.warmReset

theorem SamePort.keeps {s t : State} (h : SamePort s t) : Keeps s t := .inl h

theorem keeps_refl (s : State) : Keeps s s := (SamePort.refl s).keeps

theorem keeps_of_effect {s t : State} (h : Effect s t) : Keeps s t := by
  cases h with
  | nothing => exact keeps_refl s
  | endsEntry slot done => exact (samePort_endEntry s slot).keeps
  | accepts a x new passes => exact (samePort_accept s x).keeps
  | opens w o free mapping top clear => exact (samePort_setWindow s w _).keeps
  | amends w o allowed mapping top clear => exact (samePort_setWindow s w _).keeps
  | renews w lease allowed => exact (samePort_setWindow s w _).keeps
  | freezes w allowed => exact (samePort_setWindow s w _).keeps
  | closes w reason allowed => exact ((samePort_setWindow s w _).trans (samePort_of_sameButWindows (settle_frame _ w))).keeps
  | abandons w used thawed => exact (samePort_abandon s w).keeps
  | cancels r => exact (samePort_cancel s r).keeps
  | turns n e turn => exact (samePort_setEngine s n e).keeps
  | resets n => exact (samePort_resetSegment s n).keeps
  | takesHead n => exact (samePort_takeHead s n).keeps
  | acknowledges answered data => exact (samePort_acknowledge s answered data).keeps
  | timesOut n => exact (samePort_timeOut s n).keeps
  | errs answered => exact (samePort_errCycle s answered).keeps
  | warms => exact .inr rfl
  | writes name value v field written => exact SamePort.keeps ⟨rfl, rfl, rfl, rfl, rfl⟩

theorem Keeps.power {s t : State} (h : Keeps s t) : t.power = s.power := by
  rcases h with same | rfl
  · exact same.power
  · rfl

theorem Keeps.answers {s t : State} (h : Keeps s t) : t.answers = s.answers := by
  rcases h with same | rfl
  · exact same.answers
  · rfl

theorem Keeps.link {s t : State} (h : Keeps s t) : t.link = s.link := by
  rcases h with same | rfl
  · exact same.link
  · rfl

end Sys2Proof.Proofs.Frames

/-! SUPPORT. What the blocks answer (R58, R64, R66): a command is refused with a code of its own, never with MALFORMED, and no block answers
AGAIN RESTARTING. -/

namespace Sys2Proof.Proofs.Answers

open Sys2Proof Sys2Proof.Machine Sys2Proof.Safety Sys2Proof.Proofs.Effects Sys2Proof.Proofs.Frames

/-! ### The operand blocks -/

theorem windowOperand_refusal (block : List Byte) : windowOperand block ≠ .error .malformed := by
  unfold windowOperand
  split
  · simp
  · split <;> simp

theorem openWindowOperand_refusal (block : List Byte) : openWindowOperand block ≠ .error .malformed := by
  unfold openWindowOperand
  split
  · simp
  · split
    · simp
    · split <;> simp

theorem parseOpen_refusal (block : List Byte) : parseOpen block ≠ .error .malformed := by
  intro h
  unfold parseOpen at h
  split at h
  · rename_i code refused; cases h; exact openWindowOperand_refusal block refused
  · split at h
    · split at h <;> cases h
    · cases h

theorem parseAmend_refusal (block : List Byte) : parseAmend block ≠ .error .malformed := by
  intro h
  unfold parseAmend at h
  split at h
  · rename_i code refused; cases h; exact windowOperand_refusal block refused
  · dsimp only at h
    split at h
    · split at h <;> cases h
    · cases h

theorem parseRenew_refusal (block : List Byte) : parseRenew block ≠ .error .malformed := by
  intro h
  unfold parseRenew at h
  split at h
  · rename_i code refused; cases h; exact windowOperand_refusal block refused
  · split at h <;> cases h

theorem parseWindow_refusal (block : List Byte) : parseWindow block ≠ .error .malformed := by
  intro h
  unfold parseWindow at h
  split at h
  · rename_i code refused; cases h; exact windowOperand_refusal block refused
  · split at h <;> cases h

theorem parseClose_refusal (block : List Byte) : parseClose block ≠ .error .malformed := by
  intro h
  unfold parseClose at h
  split at h
  · rename_i code refused; cases h; exact windowOperand_refusal block refused
  · split at h <;> cases h

theorem parseLookup_refusal (block : List Byte) : parseLookup block ≠ .error .malformed := by
  unfold parseLookup
  split
  · split
    · simp
    · simp
    · split <;> simp
  · simp

theorem parseSegment_refusal (block : List Byte) : parseSegment block ≠ .error .malformed := by
  unfold parseSegment
  split
  · split <;> simp
  · simp

theorem parsePendingStatus_refusal (block : List Byte) : parsePendingStatus block ≠ .error .malformed := by
  unfold parsePendingStatus
  split
  · split
    · simp
    · split <;> simp
  · simp

theorem parseRequester_refusal (block : List Byte) : parseRequester block ≠ .error .malformed := by
  unfold parseRequester
  split
  · split <;> simp
  · simp

/-! ### The commands -/

/-- What every management command does: it is refused with a code other than MALFORMED, and where it is carried out it leaves the port as
it was, or as a warm reset does (R157, R167). -/
structure Sound (c : Command) : Prop where
  refusal : ∀ s, c s ≠ .error .malformed
  keeps : ∀ s t block, c s = .ok (t, block) → Keeps s t

theorem changeRefused_code (w : Window) : w.changeRefused ≠ some .malformed := by
  unfold Window.changeRefused
  split
  · simp
  · split <;> simp

theorem chooseRecord_refusal (s : State) (window : Option WindowNumber) : s.chooseRecord window ≠ .error .malformed := by
  unfold State.chooseRecord
  split
  · split <;> simp
  · split <;> simp

theorem openCommand_sound (block : List Byte) : Sound (openCommand block) where
  refusal s h := by
    unfold openCommand at h
    split at h
    · rename_i code refused; cases h; exact parseOpen_refusal block refused
    · split at h
      · split at h
        · rename_i code refused; cases h; exact chooseRecord_refusal s _ refused
        · dsimp only at h
          split at h <;> cases h
      · cases h
  keeps s t result h := keeps_of_effect (openCommand_effect block s t result h)

theorem amendCommand_sound (block : List Byte) : Sound (amendCommand block) where
  refusal s h := by
    unfold amendCommand at h
    split at h
    · rename_i code refused; cases h; exact parseAmend_refusal block refused
    · split at h
      · rename_i code refused; cases h; exact changeRefused_code _ refused
      · dsimp only at h
        split at h
        · split at h <;> cases h
        · cases h
  keeps s t result h := keeps_of_effect (amendCommand_effect block s t result h)

theorem renewCommand_sound (block : List Byte) : Sound (renewCommand block) where
  refusal s h := by
    unfold renewCommand at h
    split at h
    · rename_i code refused; cases h; exact parseRenew_refusal block refused
    · split at h
      · rename_i code refused; cases h; exact changeRefused_code _ refused
      · cases h
  keeps s t result h := keeps_of_effect (renewCommand_effect block s t result h)

theorem freezeCommand_sound (block : List Byte) : Sound (freezeCommand block) where
  refusal s h := by
    unfold freezeCommand at h
    split at h
    · rename_i code refused; cases h; exact parseWindow_refusal block refused
    · split at h
      · rename_i code refused; cases h; exact changeRefused_code _ refused
      · cases h
  keeps s t result h := keeps_of_effect (freezeCommand_effect block s t result h)

theorem closeCommand_sound (block : List Byte) : Sound (closeCommand block) where
  refusal s h := by
    unfold closeCommand at h
    split at h
    · rename_i code refused; cases h; exact parseClose_refusal block refused
    · split at h
      · cases h
      · split at h <;> cases h
  keeps s t result h := keeps_of_effect (closeCommand_effect block s t result h)

/-- A command whose answer comes with the state as it was keeps the port. -/
theorem sound_of_onlyReads {c : Command} (reads : OnlyReads c) (refusal : ∀ s, c s ≠ .error .malformed) : Sound c where
  refusal := refusal
  keeps s t block h := reads s t block h ▸ keeps_refl s

theorem queryCommand_sound (block : List Byte) : Sound (queryCommand block) :=
  sound_of_onlyReads (queryCommand_onlyReads block) fun s h => by
    unfold queryCommand at h
    split at h
    · rename_i code refused; cases h; exact parseWindow_refusal block refused
    · cases h

theorem lookupCommand_sound (block : List Byte) : Sound (lookupCommand block) :=
  sound_of_onlyReads (lookupCommand_onlyReads block) fun s h => by
    unfold lookupCommand at h
    split at h
    · rename_i code refused; cases h; exact parseLookup_refusal block refused
    · cases h

theorem bringOnlineCommand_sound (block : List Byte) : Sound (bringOnlineCommand block) where
  refusal s h := by
    unfold bringOnlineCommand at h
    split at h
    · rename_i code refused; cases h; exact parseSegment_refusal block refused
    · split at h <;> cases h
  keeps s t result h := keeps_of_effect (bringOnlineCommand_effect block s t result h)

theorem takeOfflineCommand_sound (block : List Byte) : Sound (takeOfflineCommand block) where
  refusal s h := by
    unfold takeOfflineCommand at h
    split at h
    · rename_i code refused; cases h; exact parseSegment_refusal block refused
    · dsimp only at h
      split at h
      · cases h
      · split at h <;> cases h
  keeps s t result h := keeps_of_effect (takeOfflineCommand_effect block s t result h)

theorem resumeCommand_sound (block : List Byte) : Sound (resumeCommand block) where
  refusal s h := by
    unfold resumeCommand at h
    split at h
    · rename_i code refused; cases h; exact parseSegment_refusal block refused
    · split at h <;> cases h
  keeps s t result h := keeps_of_effect (resumeCommand_effect block s t result h)

theorem resetSegmentCommand_sound (block : List Byte) : Sound (resetSegmentCommand block) where
  refusal s h := by
    unfold resetSegmentCommand at h
    split at h
    · rename_i code refused; cases h; exact parseSegment_refusal block refused
    · split at h <;> cases h
  keeps s t result h := keeps_of_effect (resetSegmentCommand_effect block s t result h)

theorem segmentStatusCommand_sound (block : List Byte) : Sound (segmentStatusCommand block) :=
  sound_of_onlyReads (segmentStatusCommand_onlyReads block) fun s h => by
    unfold segmentStatusCommand at h
    split at h
    · rename_i code refused; cases h; exact parseSegment_refusal block refused
    · cases h

theorem pendingStatusCommand_sound (block : List Byte) : Sound (pendingStatusCommand block) :=
  sound_of_onlyReads (pendingStatusCommand_onlyReads block) fun s h => by
    unfold pendingStatusCommand at h
    split at h
    · rename_i code refused; cases h; exact parsePendingStatus_refusal block refused
    · cases h
    · cases h

theorem cancelRequesterCommand_sound (block : List Byte) : Sound (cancelRequesterCommand block) where
  refusal s h := by
    unfold cancelRequesterCommand at h
    split at h
    · rename_i code refused; cases h; exact parseRequester_refusal block refused
    · cases h
  keeps s t result h := keeps_of_effect (cancelRequesterCommand_effect block s t result h)

theorem resumeNoticesCommand_sound (block : List Byte) : Sound (resumeNoticesCommand block) where
  refusal s h := by
    unfold resumeNoticesCommand at h
    split at h
    · split at h <;> cases h
    · cases h
  keeps s t result h := by
    unfold resumeNoticesCommand at h
    split at h
    · split at h
      · cases h; exact (samePort_setNotices s _).keeps
      · cases h
    · cases h

theorem noticeStatusCommand_sound (block : List Byte) : Sound (noticeStatusCommand block) :=
  sound_of_onlyReads (noticeStatusCommand_onlyReads block) fun s h => by
    unfold noticeStatusCommand at h
    split at h <;> cases h

theorem readSettingCommand_sound (block : List Byte) : Sound (readSettingCommand block) :=
  sound_of_onlyReads (readSettingCommand_onlyReads block) fun s h => by
    unfold readSettingCommand at h
    split at h
    · split at h <;> cases h
    · cases h

theorem samePort_afterWrite (s : State) (name : SettingName) : SamePort s (s.afterWrite name) := by
  cases name
  case noticeTarget => exact samePort_setNotices s _
  all_goals exact .refl s

theorem writeSettingCommand_sound (block : List Byte) : Sound (writeSettingCommand block) where
  refusal s h := by
    unfold writeSettingCommand at h
    split at h
    · split at h
      · cases h
      · split at h
        · cases h
        · split at h <;> cases h
    · cases h
  keeps s t result h := by
    unfold writeSettingCommand at h
    split at h
    · split at h
      · cases h
      · rename_i name _
        split at h
        · cases h
        · rename_i v _
          split at h
          · cases h
          · cases h
            have written : SamePort s { s with settings := v } := ⟨rfl, rfl, rfl, rfl, rfl⟩
            exact (written.trans (samePort_afterWrite _ name)).keeps
    · cases h

theorem identifyCommand_sound (block : List Byte) : Sound (identifyCommand block) :=
  sound_of_onlyReads (identifyCommand_onlyReads block) fun s h => by
    unfold identifyCommand at h
    split at h <;> cases h

theorem warmResetCommand_sound (block : List Byte) : Sound (warmResetCommand block) where
  refusal s h := by
    unfold warmResetCommand at h
    split at h <;> cases h
  keeps s t result h := keeps_of_effect (warmResetCommand_effect block s t result h)

/-- Each command code of R175 runs a sound command. -/
theorem sound_of_mem (code : Byte) (listed : code ∈ commandCodes) : ∃ c, RunsCommand code c ∧ ∀ ops, Sound (c ops) := by
  simp only [commandCodes, List.mem_cons, List.not_mem_nil, or_false] at listed
  rcases listed with rfl | rfl | rfl | rfl | rfl | rfl | rfl | rfl | rfl | rfl | rfl | rfl | rfl | rfl | rfl | rfl | rfl | rfl | rfl | rfl
  · exact ⟨_, runs_10h, openCommand_sound⟩
  · exact ⟨_, runs_11h, amendCommand_sound⟩
  · exact ⟨_, runs_12h, renewCommand_sound⟩
  · exact ⟨_, runs_13h, freezeCommand_sound⟩
  · exact ⟨_, runs_14h, closeCommand_sound⟩
  · exact ⟨_, runs_15h, queryCommand_sound⟩
  · exact ⟨_, runs_16h, lookupCommand_sound⟩
  · exact ⟨_, runs_20h, bringOnlineCommand_sound⟩
  · exact ⟨_, runs_21h, takeOfflineCommand_sound⟩
  · exact ⟨_, runs_22h, resumeCommand_sound⟩
  · exact ⟨_, runs_23h, resetSegmentCommand_sound⟩
  · exact ⟨_, runs_24h, segmentStatusCommand_sound⟩
  · exact ⟨_, runs_30h, pendingStatusCommand_sound⟩
  · exact ⟨_, runs_31h, cancelRequesterCommand_sound⟩
  · exact ⟨_, runs_40h, resumeNoticesCommand_sound⟩
  · exact ⟨_, runs_41h, noticeStatusCommand_sound⟩
  · exact ⟨_, runs_50h, readSettingCommand_sound⟩
  · exact ⟨_, runs_51h, writeSettingCommand_sound⟩
  · exact ⟨_, runs_52h, identifyCommand_sound⟩
  · exact ⟨_, runs_53h, warmResetCommand_sound⟩

theorem ofCommandCode_unknown (code : Byte) (unlisted : code ∉ commandCodes) (h : Header) (ops : List Byte) :
    ofCommandCode h code ops = .unknownCommand h (code :: ops) := by
  rcases ofCommandCode_cases code with ⟨c, runs⟩ | unknown
  · simp only [commandCodes, List.mem_cons, List.not_mem_nil, or_false, not_or] at unlisted
    simp only [ofCommandCode, unlisted, if_false]
  · exact unknown h ops

/-! ### READ and WRITE -/

/-- An answer of a block to an ask that no check of the port stops. -/
def OfBlock (a : Answer) : Prop := a ≠ .fault .malformed ∧ a ≠ .again .restarting

theorem ofBlock_fault {code : FaultCode} (h : code ≠ .malformed) : OfBlock (.fault code) := by simp [OfBlock, h]

theorem ofBlock_frozenAnswer (a : Ask) : OfBlock a.frozenAnswer := by
  unfold Ask.frozenAnswer
  split <;> simp [OfBlock]

theorem refuses_code (e : Engine) (code : FaultCode) (h : e.refuses = some code) : code ≠ .malformed := by
  unfold Engine.refuses at h
  split at h
  · cases h
  · split at h <;> cases h
    decide
  · cases h; decide
  · cases h; decide

theorem decodeHit_answered (s : State) (a : Ask) (w : WindowNumber) (x : Answer) (h : s.decodeHit a w = .answered x) : OfBlock x := by
  unfold State.decodeHit at h
  dsimp only at h
  split_ifs at h
  · cases h; exact ofBlock_fault (by decide)
  · cases h; exact ofBlock_fault (by decide)
  · cases h; exact ofBlock_fault (by decide)
  · cases h; exact ofBlock_frozenAnswer a
  · split at h
    · rename_i code refused; cases h; exact ofBlock_fault (refuses_code _ code refused)
    · cases h

theorem decodeMiss_answered (s : State) (a : Ask) (x : Answer) (h : s.decodeMiss a = .answered x) : OfBlock x := by
  unfold State.decodeMiss at h
  split at h
  · cases h; exact ofBlock_fault (by decide)
  · split_ifs at h
    · cases h; exact ofBlock_fault (by decide)
    · cases h; exact ofBlock_fault (by decide)
    · split at h
      · rename_i code refused; cases h; exact ofBlock_fault (refuses_code _ code refused)
      · cases h

theorem decode_answered (s : State) (a : Ask) (x : Answer) (h : s.decode a = .answered x) : OfBlock x := by
  unfold State.decode at h
  split at h
  · exact decodeHit_answered s a _ x h
  · exact decodeMiss_answered s a x h

theorem ofBlock_accept (s : State) (x : HandOff) : OfBlock (s.accept x).2 := by
  unfold State.accept State.acceptPosted State.acceptPending
  split
  · split <;> simp [OfBlock]
  · split
    · simp [OfBlock]
    · split <;> simp [OfBlock]

theorem ofBlock_delivery (e : Entry) : OfBlock e.delivery := by
  unfold Entry.delivery
  split
  · split <;> simp [OfBlock]
  · simp [OfBlock]
  · simp [OfBlock]
  · simp [OfBlock]
  · split <;> simp [OfBlock]

/-- Every answer to a well-formed READ or WRITE (R62) is one of the blocks' own. -/
theorem ofBlock_access (s : State) (a : Ask) : OfBlock (s.access a).2 := by
  unfold State.access State.collect State.newAsk
  split
  · split
    · exact ofBlock_delivery _
    · simp [OfBlock]
  · split
    · rename_i x answered; exact decode_answered s a x answered
    · exact ofBlock_accept s _

end Sys2Proof.Proofs.Answers

/-! SUPPORT. The ask-answer exchange (R48–R68): the path of every received message through the port, the one answer it gets, and the
messages that leave. -/

namespace Sys2Proof.Proofs.Exchange

open Sys2Proof Sys2Proof.Machine Sys2Proof.Safety Sys2Proof.Proofs.Frames Sys2Proof.Proofs.Answers

/-! ### The handler behind the port -/

/-- What is done with an ask whose header is whole, by its kind and body: a body out of the layouts of R172 is answered FAULT MALFORMED,
any other reaches its block, whose answer is one of its own. -/
structure Handles (kind : Byte) (body : List Byte) (f : Requester → State → State × Answer) : Prop where
  malformed : ¬ BodyOk kind body → ∀ r s, f r s = (s, .fault .malformed)
  answers : BodyOk kind body → ∀ r s, OfBlock (f r s).2
  keeps : BodyOk kind body → ∀ r s, Keeps s (f r s).1

/-- A command reaches its meaning through the port, with this header, kind and body. -/
def ComesThrough (h : Header) (kind : Byte) (body : List Byte) (i : Instr) : Prop :=
  ∃ f, (∀ s, exec i s = .next (atPort h body.length f s)) ∧ Handles kind body f

/-- The path of a READ or WRITE (R58, R62): its body is read before it reaches the tables. -/
theorem comesThrough_access {kind : AccessKind} {h : Header} {body : List Byte} {i : Instr}
    (runs : ∀ s, exec i s = .next (accessAtPort kind h body s)) : ComesThrough h (kindByte kind) body i := by
  refine ⟨_, runs, fun bad r s => ?_, fun ok r s => ?_, fun ok r s => ?_⟩
  · have unread : parseAsk kind r body = none := Option.not_isSome_iff_eq_none.1 fun h => bad ((parseAsk_iff kind r body).1 h)
    simp only [unread]
  all_goals
    obtain ⟨a, read⟩ := Option.isSome_iff_exists.1 ((parseAsk_iff kind r body).2 ok)
    simp only [read]
  · exact ofBlock_access s a
  · exact keeps_of_effect (Effects.access_effect s a)

theorem keeps_acknowledgeNotice (s : State) (r : Requester) (sequence : Byte) : Keeps s (s.acknowledgeNotice r sequence).1 := by
  unfold State.acknowledgeNotice
  split
  · split
    · exact (samePort_setNotices s _).keeps
    · exact keeps_refl s
  · exact keeps_refl s

theorem ofBlock_acknowledgeNotice (s : State) (r : Requester) (sequence : Byte) : OfBlock (s.acknowledgeNotice r sequence).2 := by
  unfold State.acknowledgeNotice
  split
  · split <;> simp [OfBlock]
  · exact ofBlock_fault (by decide)

theorem comesThrough_noticeAck (h : Header) (body : List Byte) : ComesThrough h 0x04 body (.noticeAck h body) := by
  refine ⟨_, fun _ => rfl, ?_⟩
  match body with
  | [] => exact ⟨fun _ _ _ => rfl, fun ok => absurd ((bodyOk_ack _).1 ok) (by simp), fun ok => absurd ((bodyOk_ack _).1 ok) (by simp)⟩
  | [q] =>
    exact ⟨fun bad => absurd ((bodyOk_ack _).2 rfl) bad, fun _ r s => ofBlock_acknowledgeNotice s r q,
      fun _ r s => keeps_acknowledgeNotice s r q⟩
  | _ :: _ :: _ =>
    exact ⟨fun _ _ _ => rfl, fun ok => absurd ((bodyOk_ack _).1 ok) (by simp), fun ok => absurd ((bodyOk_ack _).1 ok) (by simp)⟩

theorem ofBlock_runCommand {c : Command} (sound : Sound c) (s : State) : OfBlock (runCommand c s).2 := by
  cases ran : c s with
  | ok p => rw [runCommand_ok c s p.1 p.2 ran]; simp [OfBlock]
  | error code => rw [runCommand_error c s code ran]; exact ofBlock_fault fun bad => sound.refusal s (bad ▸ ran)

theorem keeps_runCommand {c : Command} (sound : Sound c) (s : State) : Keeps s (runCommand c s).1 := by
  cases ran : c s with
  | ok p => rw [runCommand_ok c s p.1 p.2 ran]; exact sound.keeps s _ _ ran
  | error code => rw [runCommand_error c s code ran]; exact keeps_refl s

theorem bodyOk_command (code : Byte) (ops : List Byte) : BodyOk 0x03 (code :: ops) ↔ ¬ Config.operandLimit < ops.length := by
  rw [bodyOk_manage, List.length_cons, Config.operandLimit]; omega

/-- The path of a MANAGE ask whose code runs a command (R54, R155, R157). -/
theorem comesThrough_manage {h : Header} {code : Byte} {ops : List Byte} {c : Command} {i : Instr} (sound : Sound c)
    (runs : ∀ s, exec i s = .next (manage h ops c s)) : ComesThrough h 0x03 (code :: ops) i := by
  refine ⟨_, runs, fun bad r s => ?_, fun ok r s => ?_, fun ok r s => ?_⟩
  · exact if_pos (not_not.1 fun short => bad ((bodyOk_command code ops).2 short))
  all_goals
    rw [if_neg ((bodyOk_command code ops).1 ok)]
    cases member : s.permits r
  · exact ofBlock_fault (by decide)
  · exact ofBlock_runCommand sound s
  · exact keeps_refl s
  · exact keeps_runCommand sound s

theorem comesThrough_unknownCommand (h : Header) (body : List Byte) : ComesThrough h 0x03 body (.unknownCommand h body) := by
  have layout : BodyOk 0x03 body ↔ ¬ (body = [] ∨ Config.operandLimit + 1 < body.length) := by
    rw [bodyOk_manage, not_or, ← List.length_eq_zero_iff, Config.operandLimit]; omega
  refine ⟨_, fun _ => rfl, fun bad r s => ?_, fun ok r s => ?_, fun ok r s => ?_⟩
  · exact if_pos (not_not.1 fun fits => bad (layout.2 fits))
  all_goals
    rw [if_neg (layout.1 ok)]
    cases member : s.permits r
  · exact ofBlock_fault (by decide)
  · exact ofBlock_fault (by decide)
  · exact keeps_refl s
  · exact keeps_refl s

theorem comesThrough_ofManage (h : Header) (body : List Byte) : ComesThrough h 0x03 body (ofManage h body) := by
  cases body with
  | nil => exact comesThrough_unknownCommand h []
  | cons code ops =>
    by_cases listed : code ∈ commandCodes
    · obtain ⟨c, runs, sound⟩ := sound_of_mem code listed
      exact comesThrough_manage (sound ops) (runs h ops)
    · rw [ofManage, ofCommandCode_unknown code listed]
      exact comesThrough_unknownCommand h (code :: ops)

/-! ### The header of a message -/

/-- The header of a received message, as far as it goes. -/
def headerOf (m : List Byte) : Header := (splitHeader (m.drop 1)).1

/-- The body of a received message: none where the header is cut. -/
def bodyOf (m : List Byte) : List Byte := (splitHeader (m.drop 1)).2

/-- Every received message comes to its meaning through the port (R56). -/
theorem comesThrough_ofMessage (m : List Byte) : ComesThrough (headerOf m) (m.getD 0 0) (bodyOf m) (Instr.ofMessage m) := by
  have unknown (m : List Byte) (misfit : ¬ BodyOk (m.getD 0 0) (bodyOf m)) :
      ComesThrough (headerOf m) (m.getD 0 0) (bodyOf m) (.askOfUnknownKind m) :=
    ⟨_, fun _ => rfl, fun _ _ _ => rfl, fun ok => absurd ok misfit, fun ok => absurd ok misfit⟩
  cases m with
  | nil => exact unknown [] (by decide)
  | cons kind rest =>
    show ComesThrough (splitHeader rest).1 kind (splitHeader rest).2 _
    simp only [Instr.ofMessage]
    split_ifs with read write manage ack
    · rw [read]; exact comesThrough_access (kind := .read) fun _ => rfl
    · rw [write]; exact comesThrough_access (kind := .write) fun _ => rfl
    · rw [manage]; exact comesThrough_ofManage _ _
    · rw [ack]; exact comesThrough_noticeAck _ _
    · exact unknown (kind :: rest) (bodyOk_other kind _ read write manage ack)

theorem sender_headerOf (m : List Byte) (long : 2 ≤ m.length) : sender (headerOf m) = some (messageSender m) := by
  match m with
  | [_, _] | [_, _, _] | _ :: _ :: _ :: _ :: _ => rfl

theorem sender_headerOf_short (m : List Byte) (short : m.length < 2) : sender (headerOf m) = none := by
  match m with
  | [] | [_] => rfl

/-- The checks of R58, R171 and R172 on a message are those of its header and of its body. -/
theorem messageOk_iff (m : List Byte) :
    MessageOk m ↔ headerOk (headerOf m) (bodyOf m).length = true ∧ BodyOk (m.getD 0 0) (bodyOf m) := by
  match m with
  | [] | [_] | [_, _] | [_, _, _] =>
    exact ⟨fun ok => absurd ok.1 (by simp), fun ok => absurd ok.1 (by simp [headerOf, splitHeader, headerOk])⟩
  | kind :: requester :: length :: reserved :: body =>
    have split : headerOf (kind :: requester :: length :: reserved :: body) = .whole requester length reserved := rfl
    have rest : bodyOf (kind :: requester :: length :: reserved :: body) = body := rfl
    simp only [split, rest, headerOk, MessageOk, Bool.and_eq_true, decide_eq_true_eq, List.length_cons, List.getD_cons_zero,
      List.getD_cons_succ, List.drop_succ_cons, List.drop_zero]
    constructor
    · rintro ⟨-, whole, requester, reserved, layout⟩
      exact ⟨⟨⟨by omega, requester⟩, reserved⟩, layout⟩
    · rintro ⟨⟨⟨whole, requester⟩, reserved⟩, layout⟩
      exact ⟨by omega, by omega, requester, reserved, layout⟩

/-! ### The statements -/

/-- Settles O8: each case is one of the port's first steps, which come before any block. -/
theorem messagesThatReachNoBlock : Obligations.MessagesThatReachNoBlock := by
  intro m s
  obtain ⟨f, runs, -⟩ := comesThrough_ofMessage m
  rw [runs]
  refine ⟨fun cold => ?_, fun short => ?_, fun long on restarting => ?_⟩
  · rw [atPort_in_cold_reset _ _ _ _ cold]
  · rw [atPort_without_sender _ _ _ _ (sender_headerOf_short m short)]
  · rw [atPort_restarting _ _ _ _ _ on (sender_headerOf m long) restarting]

/-- A malformed message is stopped by the header checks of the port, or else by the handler of its kind. -/
theorem exec_malformed (m : List Byte) (s : State) (long : 2 ≤ m.length) (running : Running s) (bad : ¬ MessageOk m) :
    exec (Instr.ofMessage m) s = .next (s.answer (messageSender m) (.fault .malformed)) := by
  obtain ⟨on, port⟩ := running
  obtain ⟨f, runs, handles⟩ := comesThrough_ofMessage m
  have sent := sender_headerOf m long
  rw [runs]
  cases whole : headerOk (headerOf m) (bodyOf m).length with
  | false => rw [atPort_malformed _ _ _ _ _ on sent port whole]
  | true =>
    have misfit : ¬ BodyOk (m.getD 0 0) (bodyOf m) := fun fits => bad ((messageOk_iff m).2 ⟨whole, fits⟩)
    rw [atPort_running _ _ _ _ _ on sent port whole, handles.malformed misfit]

/-- A message that is not malformed is answered by the block it reaches. -/
theorem exec_wellFormed (m : List Byte) (s : State) (long : 2 ≤ m.length) (running : Running s) (ok : MessageOk m) :
    ∃ a t, exec (Instr.ofMessage m) s = .next (t.answer (messageSender m) a) ∧ OfBlock a ∧ Keeps s t := by
  obtain ⟨on, port⟩ := running
  obtain ⟨f, runs, handles⟩ := comesThrough_ofMessage m
  obtain ⟨whole, fits⟩ := (messageOk_iff m).1 ok
  refine ⟨_, _, ?_, handles.answers fits (messageSender m) s, handles.keeps fits (messageSender m) s⟩
  rw [runs, atPort_running _ _ _ _ _ on (sender_headerOf m long) port whole]

theorem ofMessage_of_unknown_kind (kind : Byte) (rest : List Byte) (read : kind ≠ 0x01) (write : kind ≠ 0x02) (manage : kind ≠ 0x03)
    (ack : kind ≠ 0x04) : Instr.ofMessage (kind :: rest) = .askOfUnknownKind (kind :: rest) := by
  simp only [Instr.ofMessage, if_neg read, if_neg write, if_neg manage, if_neg ack]

/-- Settles O9: a kind that names none of the four asks makes its message malformed, whatever follows. -/
theorem malformedAsksAreRefused : Obligations.MalformedAsksAreRefused := by
  refine ⟨exec_malformed, fun kind second rest s read write manage ack running => ?_⟩
  rw [← ofMessage_of_unknown_kind kind (second :: rest) read write manage ack]
  refine exec_malformed _ s (by simp) running fun ok => ?_
  exact bodyOk_other kind _ read write manage ack ((messageOk_iff _).1 ok).2

/-- Settles O10, by whether the message is malformed. -/
theorem everyAskIsAnsweredOnce : Obligations.EveryAskIsAnsweredOnce := by
  intro m s long running
  by_cases ok : MessageOk m
  · obtain ⟨a, t, runs, ⟨own, ready⟩, keeps⟩ := exec_wellFormed m s long running ok
    exact ⟨a, _, runs, by rw [State.answer_answers, keeps.answers], keeps.link, iff_of_false own (not_not.2 ok), ready⟩
  · exact ⟨_, _, exec_malformed m s long running ok, rfl, rfl, iff_of_true rfl ok, by simp⟩

/-! ### Messages that leave -/

theorem send_answer_of_none (s : State) (empty : s.answers = []) : s.send .answer = s := by simp only [State.send, empty]

theorem send_notice_of_none (s : State) (empty : s.handed = []) : s.send .notice = s := by simp only [State.send, empty]

/-- The answer that leaves is the first, as the message of its kind and its body (R67, R171, R173). -/
theorem send_answer (s : State) (x : Reply) (rest : List Reply) (first : s.answers = x :: rest) :
    s.send .answer = { s with
      answers := rest
      link := s.link ++ [[x.answer.kindCode, byteOf x.requester.val, byteOf x.answer.body.length, 0x00] ++ x.answer.body] } := by
  simp only [State.send, first]; rfl

/-- The NOTICE that leaves is the one handed first (R68, R171, R174). -/
theorem send_notice (s : State) (x : NoticeMessage) (rest : List NoticeMessage) (first : s.handed = x :: rest) :
    s.send .notice = { s with
      handed := rest
      link := s.link ++
        [[0x90, byteOf x.addressee.val, 11, 0x00, x.sequence, x.news.key.1.code, byteOf x.news.key.2, byteOf x.repeats,
          if x.overrun then 0x01 else 0x00, x.news.detailA, x.news.detailB] ++ fieldOf 4 x.news.addressField] } := by
  have flags : x.flags = if x.overrun then 0x01 else 0x00 := by unfold NoticeMessage.flags; cases x.overrun <;> rfl
  rw [← flags]
  simp only [State.send, first]; rfl

/-- Settles O11: the kinds and bodies of R173 answer by answer, the fields of R174 notice by notice. -/
theorem messagesLeaveThePort : Obligations.MessagesLeaveThePort := by
  refine ⟨fun s => ⟨fun empty => congrArg _ (send_answer_of_none s empty), fun x rest first kind body form => ?_⟩,
    fun s => ⟨fun empty => congrArg _ (send_notice_of_none s empty),
      fun x rest first kind subject detailA detailB address form => ?_⟩⟩
  · have layout : x.answer.kindCode = kind ∧ x.answer.body = body := by
      rcases form with ⟨d, h, rfl, rfl⟩ | ⟨h, rfl, rfl⟩ | ⟨h, rfl, rfl⟩ | ⟨h, rfl, rfl⟩ | ⟨h, rfl, rfl⟩ | ⟨code, h, rfl, rfl⟩
        | ⟨block, h, rfl, rfl⟩
      all_goals simp only [h, faultByte_eq_code, Answer.kindCode, Answer.body, AgainReason.code, and_self]
    obtain ⟨rfl, rfl⟩ := layout
    exact congrArg _ (send_answer s x rest first)
  · have layout : x.news.key.1.code = kind ∧ byteOf x.news.key.2 = subject ∧ x.news.detailA = detailA ∧ x.news.detailB = detailB
        ∧ x.news.addressField = address := by
      rcases form with ⟨n, d, cause, h, rfl, rfl, rfl, rfl, rfl⟩ | ⟨r, slot, k, d, h, rfl, rfl, rfl, rfl, rfl⟩
        | ⟨w, g, reason, h, rfl, rfl, rfl, rfl, rfl⟩ | ⟨n, cause, h, rfl, rfl, rfl, rfl, rfl⟩
      · rw [h, lossByte_eq_code]; exact ⟨rfl, rfl, rfl, rfl, rfl⟩
      · rw [h, entryKindByte_eq_code]; exact ⟨rfl, rfl, rfl, rfl, rfl⟩
      · rw [h, retireByte_eq_code]; exact ⟨rfl, rfl, rfl, rfl, rfl⟩
      · rw [h, causeByte_eq_code]; exact ⟨rfl, rfl, rfl, rfl, rfl⟩
    obtain ⟨rfl, rfl, rfl, rfl, rfl⟩ := layout
    exact congrArg _ (send_notice s x rest first)

/-! ### The send of the head -/

/-- Where no target is named, delivery is not IDLE or the queue is empty, the head is not sent (R68, R143). -/
theorem sendHead_idle (s : State) (idle : s.settings.noticeTarget = none ∨ s.notices.delivery ≠ .idle ∨ s.notices.queue = []) :
    s.sendHead = s := by
  unfold State.sendHead
  split
  · rename_i target head rest named delivery queue
    rcases idle with unnamed | busy | empty
    · rw [unnamed] at named; cases named
    · exact absurd delivery busy
    · rw [empty] at queue; cases queue
  · rfl

/-- Settles O42, by whether the head has a sequence already (R143, step 1). -/
theorem theHeadIsSent : Obligations.TheHeadIsSent := by
  refine fun s => ⟨fun idle => congrArg _ (sendHead_idle s idle), fun target x rest named idle queue sequence next numbered => ?_⟩
  have sent : s.notices.sendSequence x = sequence
      ∧ (if x.sequence.isSome then s.notices.nextSequence else s.notices.nextSequence + 1) = next := by
    rcases numbered with ⟨fresh, rfl, rfl⟩ | ⟨again, rfl⟩
    · simp [NoticeUnit.sendSequence, fresh]
    · simp [NoticeUnit.sendSequence, again]
  obtain ⟨rfl, rfl⟩ := sent
  show Host.Outcome.next s.sendHead = _
  simp only [State.sendHead, named, idle, queue]
  rfl

end Sys2Proof.Proofs.Exchange

/-! SUPPORT. The reset states through every step (R50, R51, R57, R166): what a command can do to the pins and the port, said once, and what
the quiet of RESTARTING and of the cold reset leaves a command to do. -/

namespace Sys2Proof.Proofs.ResetStates

open Sys2Proof Sys2Proof.Machine Sys2Proof.Safety Sys2Proof.Proofs.Scope Sys2Proof.Proofs.WindowTable Sys2Proof.Proofs.Effects
open Sys2Proof.Proofs.Tables Sys2Proof.Proofs.Frames Sys2Proof.Proofs.Answers Sys2Proof.Proofs.Exchange

/-! ### Nothing runs -/

/-- No timer of a window, an entry, a cycle or a notice runs, no item waits, and no notice has a target. A reset pulse may run. -/
structure Still (s : State) : Prop where
  leases : ∀ w : WindowNumber, s.windows[w].lease = none
  discards : ∀ slot : Slot, s.entries[slot].discard = none
  cycles : ∀ n : SegmentNumber, s.engines[n].current = none
  lists : ∀ n : SegmentNumber, s.engines[n].queue = []
  ackTimer : s.notices.ackTimer = none
  target : s.settings.noticeTarget = none

theorem still_of_quiet {s : State} (h : Quiet s) : Still s where
  leases w := (h.windows w).1
  discards slot := (h.entries slot).2
  cycles n := (h.engines n).2.2.2
  lists n := (h.engines n).2.1
  ackTimer := by rw [h.notices]; rfl
  target := by rw [h.settings]; rfl

theorem still_of_coldHeld {s : State} (h : ColdHeld s) : Still s where
  leases w := by rw [h.windows]; rfl
  discards slot := by rw [h.entries]; rfl
  cycles n := by rw [h.engines]; rfl
  lists n := by rw [h.engines]; rfl
  ackTimer := by rw [h.notices]; rfl
  target := by rw [h.settings]; rfl

theorem answeredCycle_of_still {s : State} (h : Still s) (answered : CycleName) :
    ∀ x, s.engines[answered.segment].current = some x → x.number ≠ answered.number := by
  intro x hx
  rw [h.cycles] at hx
  cases hx

/-! ### What a command can do to the port -/

/-- What a command can do to the pins and the port. -/
inductive PortMove (s : State) : State → Prop
  | event (t : State) (same : SamePort s t) (still : Still s → t = s) : PortMove s t
  | answers (r : Requester) (a : Answer) (on : s.power = .on) : PortMove s (s.answer r a)
  | handles (t : State) (r : Requester) (a : Answer) (running : Running s) (keeps : Keeps s t) : PortMove s (t.answer r a)
  | sends (which : Outgoing) : PortMove s (s.send which)
  | pulse (n : SegmentNumber) : PortMove s (s.endPulse n)
  | warms (on : s.power = .on) : PortMove s { s.warmReset with warmN := true }
  | asserts (off : s.power ≠ .on) : PortMove s { s with warmN := true }
  | releases : PortMove s (State.leaveRestarting { s with warmN := false })
  | falls : PortMove s s.coldReset
  | rises (x : Timer) (off : s.power = .off) : PortMove s { s with power := .counting x }
  | ends (released : s.warmN = false) : PortMove s { s with power := .on, port := .running }
  | endsWarm : PortMove s (({ s with power := .on, port := .running } : State).warmReset)

theorem PortMove.nothing (s : State) : PortMove s s := .event s (.refl s) fun _ => rfl

theorem atPort_portMove (h : Header) (n : Nat) (f : Requester → State → State × Answer) (s : State)
    (keeps : ∀ r, Keeps s (f r s).1) : PortMove s (atPort h n f s) := by
  by_cases on : s.power = .on
  · rcases atPort_cases h n f s with same | ⟨r, a, -, answered⟩ | ⟨r, -, -, running, handled⟩
    · rw [same]; exact .nothing s
    · rw [answered]; exact .answers r a on
    · rw [handled]; exact .handles _ r _ ⟨on, running⟩ (keeps r)
  · rw [atPort_in_cold_reset h n f s on]; exact .nothing s

theorem portMove_of_comesThrough {h : Header} {kind : Byte} {body : List Byte} {i : Instr} (through : ComesThrough h kind body i)
    {s t : State} (ran : exec i s = .next t) : PortMove s t := by
  obtain ⟨f, runs, handles⟩ := through
  rw [runs] at ran
  cases ran
  refine atPort_portMove h _ f s fun r => ?_
  by_cases fits : BodyOk kind body
  · exact handles.keeps fits r s
  · rw [handles.malformed fits]; exact keeps_refl s

theorem manage_portMove {h : Header} {ops : List Byte} {c : Command} {i : Instr} (sound : Sound c)
    (runs : ∀ s, exec i s = .next (manage h ops c s)) {s t : State} (ran : exec i s = .next t) : PortMove s t :=
  portMove_of_comesThrough (comesThrough_manage (code := 0) sound runs) ran

theorem leaseExpiry_portMove (s t : State) (w : WindowNumber) (h : execLeaseExpiry w s = .next t) : PortMove s t := by
  refine .event t ?_ fun still => ?_
  · unfold execLeaseExpiry at h
    split at h
    · cases h; exact (samePort_setWindow s w _).trans (samePort_of_sameButWindows (settle_frame _ w))
    · cases h; exact .refl s
  · rw [leaseExpiry_early s w (by rw [still.leases]; rfl)] at h
    cases h; rfl

theorem discardExpiry_portMove (s t : State) (slot : Slot) (h : execDiscardExpiry slot s = .next t) : PortMove s t := by
  refine .event t ?_ fun still => ?_
  · unfold execDiscardExpiry at h
    dsimp only at h
    split at h
    · cases h
      exact ((samePort_setEntry s slot _).trans (samePort_raise _ _ _)).trans (samePort_lowerRoute _ _)
    · cases h; exact .refl s
  · rw [discardExpiry_early s slot (by rw [still.discards]; rfl)] at h
    cases h; rfl

theorem timeOut_portMove (s : State) (n : SegmentNumber) : PortMove s (s.timeOut n) :=
  .event _ (samePort_timeOut s n) fun still => by
    have early : mayExpire (s.engines[n].current.map RunningCycle.timer) ≠ true := by rw [still.cycles]; decide
    exact if_neg early

theorem ackTimerExpiry_portMove (s t : State) (h : execAckTimerExpiry s = .next t) : PortMove s t := by
  refine .event t ?_ fun still => ?_
  · unfold execAckTimerExpiry at h
    split at h
    · cases h; exact samePort_setNotices s _
    · cases h; exact .refl s
  · rw [ackTimerExpiry_early s (by rw [still.ackTimer]; rfl)] at h
    cases h; rfl

theorem takeHead_portMove (s : State) (n : SegmentNumber) : PortMove s (s.takeHead n) :=
  .event _ (samePort_takeHead s n) fun still => by
    simp only [State.takeHead, still.lists n, ite_self]

theorem warmNAssert_portMove (s t : State) (h : execWarmNAssert s = .next t) : PortMove s t := by
  unfold execWarmNAssert at h
  split at h
  · rename_i on; cases h; exact .warms on
  · rename_i off; cases h; exact .asserts off

theorem pwrgoodRise_portMove (s t : State) (h : execPwrgoodRise s = .next t) : PortMove s t := by
  unfold execPwrgoodRise at h
  split at h
  · rename_i off; cases h; exact .rises _ off
  · cases h; exact .nothing s
  · cases h; exact .nothing s

theorem coldResetEnd_portMove (s t : State) (h : execColdResetEnd s = .next t) : PortMove s t := by
  unfold execColdResetEnd at h
  split at h
  · cases h; exact .nothing s
  · split at h
    · split at h
      · cases h; exact .endsWarm
      · rename_i released; cases h; exact .ends (Bool.eq_false_iff.2 released)
    · cases h; exact .nothing s
  · cases h; exact .nothing s

/-- What each of the 44 commands can do to the pins and the port. -/
theorem exec_portMove (c : Instr) (s t : State) (h : exec c s = .next t) : PortMove s t := by
  cases c with
  | read header body => exact portMove_of_comesThrough (comesThrough_access (h := header) (body := body) (kind := .read) fun _ => rfl) h
  | write header body => exact portMove_of_comesThrough (comesThrough_access (h := header) (body := body) (kind := .write) fun _ => rfl) h
  | noticeAck header body => exact portMove_of_comesThrough (comesThrough_noticeAck header body) h
  | openWindow header ops => exact manage_portMove (openCommand_sound ops) (fun _ => rfl) h
  | amend header ops => exact manage_portMove (amendCommand_sound ops) (fun _ => rfl) h
  | renew header ops => exact manage_portMove (renewCommand_sound ops) (fun _ => rfl) h
  | freeze header ops => exact manage_portMove (freezeCommand_sound ops) (fun _ => rfl) h
  | close header ops => exact manage_portMove (closeCommand_sound ops) (fun _ => rfl) h
  | closeWithAbandon header ops => exact manage_portMove (closeCommand_sound ops) (fun _ => rfl) h
  | query header ops => exact manage_portMove (queryCommand_sound ops) (fun _ => rfl) h
  | lookup header ops => exact manage_portMove (lookupCommand_sound ops) (fun _ => rfl) h
  | bringOnline header ops => exact manage_portMove (bringOnlineCommand_sound ops) (fun _ => rfl) h
  | takeOffline header ops => exact manage_portMove (takeOfflineCommand_sound ops) (fun _ => rfl) h
  | resume header ops => exact manage_portMove (resumeCommand_sound ops) (fun _ => rfl) h
  | resetSegment header ops => exact manage_portMove (resetSegmentCommand_sound ops) (fun _ => rfl) h
  | segmentStatus header ops => exact manage_portMove (segmentStatusCommand_sound ops) (fun _ => rfl) h
  | pendingStatus header ops => exact manage_portMove (pendingStatusCommand_sound ops) (fun _ => rfl) h
  | cancelRequester header ops => exact manage_portMove (cancelRequesterCommand_sound ops) (fun _ => rfl) h
  | resumeNotices header ops => exact manage_portMove (resumeNoticesCommand_sound ops) (fun _ => rfl) h
  | noticeStatus header ops => exact manage_portMove (noticeStatusCommand_sound ops) (fun _ => rfl) h
  | readSetting header ops => exact manage_portMove (readSettingCommand_sound ops) (fun _ => rfl) h
  | writeSetting header ops => exact manage_portMove (writeSettingCommand_sound ops) (fun _ => rfl) h
  | noticeTarget header rest => exact manage_portMove (writeSettingCommand_sound (0x07 :: rest)) (fun _ => rfl) h
  | segnWidth header rest => exact manage_portMove (writeSettingCommand_sound (0x10 :: rest)) (fun _ => rfl) h
  | managementSet header rest => exact manage_portMove (writeSettingCommand_sound (0x01 :: rest)) (fun _ => rfl) h
  | identify header ops => exact manage_portMove (identifyCommand_sound ops) (fun _ => rfl) h
  | warmReset header ops => exact manage_portMove (warmResetCommand_sound ops) (fun _ => rfl) h
  | unknownCommand header body => exact portMove_of_comesThrough (comesThrough_unknownCommand header body) h
  | warmNAssert => exact warmNAssert_portMove s t h
  | warmNRelease => cases h; exact .releases
  | pwrgoodFall => cases h; exact .falls
  | coldResetEnd => exact coldResetEnd_portMove s t h
  | leaseExpiry w => exact leaseExpiry_portMove s t w h
  | discardExpiry slot => exact discardExpiry_portMove s t slot h
  | cycleTimeout n => cases h; exact timeOut_portMove s n
  | cycleAcknowledged answered data =>
    cases h
    exact .event _ (samePort_acknowledge s answered data) fun still =>
      acknowledge_late s answered data (answeredCycle_of_still still answered)
  | targetError answered =>
    cases h
    exact .event _ (samePort_errCycle s answered) fun still => errCycle_late s answered (answeredCycle_of_still still answered)
  | resetPulseExpiry n => cases h; exact .pulse n
  | ackTimerExpiry => exact ackTimerExpiry_portMove s t h
  | takeHead n => cases h; exact takeHead_portMove s n
  | noticeSend => cases h; exact .event _ (samePort_sendHead s) fun still => sendHead_idle s (.inl still.target)
  | pwrgoodRise => exact pwrgoodRise_portMove s t h
  | askOfUnknownKind message => cases h; exact atPort_portMove _ _ _ s fun _ => keeps_refl s
  | messageLeavesPort which => cases h; exact .sends which

/-! ### The port -/

theorem portOk_of_running {s : State} (running : s.port = .running) (released : s.power = .on → s.warmN = false) : PortOk s where
  restarting h := by rw [running] at h; cases h
  warm on asserted := by rw [released on] at asserted; cases asserted

theorem portOk_of_quiet {s : State} (restarting : s.port = .restarting) (quiet : Quiet s) : PortOk s :=
  ⟨fun _ => quiet, fun _ _ => restarting⟩

theorem released_of_running {s : State} (ok : PortOk s) (running : s.port = .running) (on : s.power = .on) : s.warmN = false :=
  Bool.eq_false_iff.2 fun asserted => by rw [ok.warm on asserted] at running; cases running

/-- A running port stays as it is where the pins and its state do. -/
theorem portOk_of_samePins {s t : State} (ok : PortOk s) (running : s.port = .running) (port : t.port = s.port)
    (power : t.power = s.power) (warmN : t.warmN = s.warmN) : PortOk t :=
  portOk_of_running (port.trans running) fun on => warmN.trans (released_of_running ok running (power ▸ on))

theorem quiet_congr {s t : State} (h : Quiet s) (tables : SameTables s t) (notices : t.notices = s.notices) (handed : t.handed = s.handed)
    (warmN : t.warmN = s.warmN) : Quiet t where
  entries := by rw [tables.entries]; exact h.entries
  engines := by rw [tables.engines]; exact h.engines
  windows := by rw [tables.windows]; exact h.windows
  notices := notices.trans h.notices
  handed := handed.trans h.handed
  settings := tables.settings.trans h.settings
  lasting := by rw [tables.engines, warmN]; exact h.lasting

theorem portOk_answer {s : State} (ok : PortOk s) (r : Requester) (a : Answer) : PortOk (s.answer r a) :=
  ⟨fun restarting => quiet_congr (ok.restarting restarting) (sameTables_answer s r a) rfl rfl rfl, ok.warm⟩

/-- The warm reset leaves the part quiet (R49, R166). -/
theorem quiet_warmReset (s : State) : Quiet s.warmReset where
  entries slot := by rw [warmReset_entry]; exact ⟨rfl, rfl⟩
  engines n := by rw [warmReset_engine]; exact ⟨.inr ⟨rfl, rfl⟩, rfl, rfl, rfl⟩
  windows w := by
    rw [warmReset_window]
    refine ⟨rfl, fun visible => ⟨?_, rfl⟩⟩
    cases frozen : s.windows[w].frozen with
    | true => exact frozen
    | false => simp [-Fin.getElem_fin, Window.visible, Window.warm, frozen] at visible
  notices := rfl
  handed := rfl
  settings := rfl
  lasting := .inr ⟨0, by rw [warmReset_engine]; rfl⟩

theorem portOk_warmReset (s : State) : PortOk s.warmReset := portOk_of_quiet rfl (quiet_warmReset s)

theorem portOk_of_keeps {s t : State} (keeps : Keeps s t) (ok : PortOk s) (running : s.port = .running) : PortOk t := by
  rcases keeps with same | rfl
  · exact portOk_of_samePins ok running same.port same.power same.warmN
  · exact portOk_warmReset s

theorem send_pins (s : State) (which : Outgoing) :
    (s.send which).port = s.port ∧ (s.send which).power = s.power ∧ (s.send which).warmN = s.warmN := by
  cases which <;> (simp only [State.send]; split <;> exact ⟨rfl, rfl, rfl⟩)

theorem send_answer_rest (s : State) : (s.send .answer).notices = s.notices ∧ (s.send .answer).handed = s.handed := by
  simp only [State.send]; split <;> exact ⟨rfl, rfl⟩

/-- An answer may leave while the port is RESTARTING (R49); no NOTICE waits then (R68). -/
theorem portOk_send {s : State} (ok : PortOk s) (which : Outgoing) : PortOk (s.send which) := by
  obtain ⟨port, power, warmN⟩ := send_pins s which
  cases state : s.port with
  | running => exact portOk_of_samePins ok state port power warmN
  | restarting =>
    have quiet := ok.restarting state
    refine portOk_of_quiet (port.trans state) ?_
    cases which with
    | answer => exact quiet_congr quiet (sameTables_send s .answer) (send_answer_rest s).1 (send_answer_rest s).2 warmN
    | notice => rw [send_notice_of_none s quiet.handed]; exact quiet

/-- RESTARTING lasts until WARM_N is released and no engine is RESETTING (R50). -/
theorem portOk_leaveRestarting (s : State) (warm : s.power = .on → s.warmN = true → s.port = .restarting)
    (quiet : s.port = .restarting → (s.warmN = true ∨ ∃ n : SegmentNumber, s.engines[n].state = .resetting) → Quiet s) :
    PortOk s.leaveRestarting := by
  rw [leaveRestarting_eq]
  split
  · rename_i ended
    exact portOk_of_running rfl fun _ => ended.2.1
  · rename_i lasts
    refine ⟨fun restarting => quiet restarting ?_, warm⟩
    by_contra ended
    rw [not_or, Bool.not_eq_true, not_exists] at ended
    exact lasts ⟨restarting, ended⟩

theorem leaveRestarting_of_running (s : State) (running : s.port = .running) : s.leaveRestarting = s :=
  if_neg fun h => by rw [running] at h; cases h.1

/-- The end of one pulse of a warm reset: its engine is OFFLINE, for that is the return state of each of them (R132, R134). -/
theorem portOk_endPulse {s : State} (ok : PortOk s) (n : SegmentNumber) : PortOk (s.endPulse n) := by
  by_cases expires : mayExpire s.engines[n].resetPulse = true
  · rw [endPulse_of_mayExpire s n ((mayExpire_iff _).1 expires)]
    refine portOk_leaveRestarting _ ok.warm fun restarting lasting => ?_
    have quiet := ok.restarting restarting
    refine { quiet with engines := fun m => ?_, lasting := lasting }
    rw [engine_after_set]
    split
    · obtain ⟨⟨-, stopped⟩ | ⟨-, returns⟩, rest⟩ := quiet.engines n
      · rw [stopped] at expires; cases expires
      · exact ⟨.inl ⟨by rw [returns]; rfl, rfl⟩, rest⟩
    · exact quiet.engines m
  · have early : s.endPulse n = s := if_neg expires
    rw [early]; exact ok

theorem portOk_of_portMove {s t : State} (ok : PortOk s) (h : PortMove s t) : PortOk t := by
  cases h with
  | event t same still =>
    cases port : s.port with
    | running => exact portOk_of_samePins ok port same.port same.power same.warmN
    | restarting => rw [still (still_of_quiet (ok.restarting port))]; exact ok
  | answers r a on => exact portOk_answer ok r a
  | handles t r a running keeps => exact portOk_answer (portOk_of_keeps keeps ok running.2) r a
  | sends which => exact portOk_send ok which
  | pulse n => exact portOk_endPulse ok n
  | warms on => exact portOk_of_quiet rfl { quiet_warmReset s with lasting := .inl rfl }
  | asserts off => exact ⟨fun restarting => { ok.restarting restarting with lasting := .inl rfl }, fun on => absurd on off⟩
  | releases =>
    exact portOk_leaveRestarting _ (fun _ asserted => nomatch asserted) fun restarting lasting =>
      { ok.restarting restarting with lasting := lasting }
  | falls => exact portOk_of_running rfl fun on => nomatch on
  | rises x off =>
    exact ⟨fun restarting => quiet_congr (ok.restarting restarting) ⟨rfl, rfl, rfl, rfl, rfl⟩ rfl rfl rfl, fun on => nomatch on⟩
  | ends released => exact portOk_of_running rfl fun _ => released
  | endsWarm => exact portOk_warmReset _

/-! ### The cold reset -/

theorem coldHeld_coldReset (s : State) : ColdHeld s.coldReset :=
  ⟨rfl, rfl, rfl, fun w => by simp [State.coldReset], coldReset_entry s, coldReset_engine s, rfl, rfl⟩

theorem coldHeld_congr {s t : State} (h : ColdHeld s) (tables : SameTables s t) (port : t.port = s.port)
    (answers : t.answers = s.answers) (handed : t.handed = s.handed) (notices : t.notices = s.notices) : ColdHeld t where
  port := port.trans h.port
  answers := answers.trans h.answers
  handed := handed.trans h.handed
  windows := by rw [tables.windows]; exact h.windows
  entries := by rw [tables.entries]; exact h.entries
  engines := by rw [tables.engines]; exact h.engines
  notices := notices.trans h.notices
  settings := tables.settings.trans h.settings

theorem coldHeld_of_portMove {s t : State} (held : s.power ≠ .on → ColdHeld s) (h : PortMove s t) (off : t.power ≠ .on) :
    ColdHeld t := by
  cases h with
  | event t same still =>
    have cold := held (same.power ▸ off)
    rw [still (still_of_coldHeld cold)]; exact cold
  | answers r a on => exact absurd on off
  | handles t r a running keeps => exact absurd (keeps.power.trans running.1) off
  | sends which =>
    have cold := held ((send_pins s which).2.1 ▸ off)
    cases which with
    | answer => rw [send_answer_of_none s cold.answers]; exact cold
    | notice => rw [send_notice_of_none s cold.handed]; exact cold
  | pulse n =>
    by_cases expires : mayExpire s.engines[n].resetPulse = true
    · rw [endPulse_of_mayExpire s n ((mayExpire_iff _).1 expires), leaveRestarting_eq] at off
      have cold := held (by split at off <;> exact off)
      rw [cold.engines] at expires; cases expires
    · have early : s.endPulse n = s := if_neg expires
      rw [early] at off ⊢; exact held off
  | warms on => exact absurd on off
  | asserts low => exact coldHeld_congr (held low) ⟨rfl, rfl, rfl, rfl, rfl⟩ rfl rfl rfl rfl
  | releases =>
    have power : (State.leaveRestarting { s with warmN := false }).power = s.power := by rw [leaveRestarting_eq]; split <;> rfl
    have cold := held (power ▸ off)
    rw [leaveRestarting_of_running { s with warmN := false } cold.port]
    exact coldHeld_congr cold ⟨rfl, rfl, rfl, rfl, rfl⟩ rfl rfl rfl rfl
  | falls => exact coldHeld_coldReset s
  | rises x low => exact coldHeld_congr (held (by rw [low]; decide)) ⟨rfl, rfl, rfl, rfl, rfl⟩ rfl rfl rfl rfl
  | ends released => exact absurd rfl off
  | endsWarm => exact absurd rfl off

/-! ### The tick -/

theorem quiet_tick {s : State} (h : Quiet s) : Quiet s.tick where
  entries slot := by
    obtain ⟨free, stopped⟩ := h.entries slot
    rw [tick_entry]
    exact ⟨free, by rw [Entry.tick, stopped]; rfl⟩
  engines n := by
    obtain ⟨state, empty, idle, current⟩ := h.engines n
    rw [tick_engine]
    refine ⟨state.imp_left fun offline => ⟨offline.1, ?_⟩, empty, idle, ?_⟩
    · rw [Engine.tick, offline.2]; rfl
    · rw [Engine.tick, current]; rfl
  windows w := by
    obtain ⟨stopped, frozen⟩ := h.windows w
    rw [tick_window]
    exact ⟨by rw [Window.tick, stopped]; rfl, frozen⟩
  notices := by
    show s.notices.tick = _
    rw [h.notices]; rfl
  handed := h.handed
  settings := h.settings
  lasting := h.lasting.imp_right fun ⟨n, resetting⟩ => ⟨n, by rw [tick_engine]; exact resetting⟩

theorem tick_power_on (s : State) : s.tick.power = .on ↔ s.power = .on := by
  show s.power.tick = _ ↔ _
  cases s.power <;> simp [Power.tick]

theorem portOk_tick {s : State} (ok : PortOk s) : PortOk s.tick :=
  ⟨fun restarting => quiet_tick (ok.restarting restarting), fun on asserted => ok.warm ((tick_power_on s).1 on) asserted⟩

theorem coldHeld_tick {s : State} (h : ColdHeld s) : ColdHeld s.tick where
  port := h.port
  answers := h.answers
  handed := h.handed
  windows w := by rw [tick_window, h.windows]; rfl
  entries slot := by rw [tick_entry, h.entries]; rfl
  engines n := by rw [tick_engine, h.engines]; rfl
  notices := by
    show s.notices.tick = _
    rw [h.notices]; rfl
  settings := h.settings

/-- Settles O59: a tick keeps what is stopped, and a command makes one of the moves of the port. -/
theorem stepsKeepTheResetStates : Obligations.StepsKeepTheResetStates := by
  intro s t h
  unfold step at h
  split at h
  · cases h
    exact ⟨portOk_tick, fun held off => coldHeld_tick (held fun on => off ((tick_power_on s).2 on))⟩
  · rename_i c rest _
    have taken : SameTables s { s with pending := rest } := ⟨rfl, rfl, rfl, rfl, rfl⟩
    have moves := exec_portMove c { s with pending := rest } t h
    refine ⟨fun ok => portOk_of_portMove ?_ moves, fun held => coldHeld_of_portMove ?_ moves⟩
    · exact ⟨fun restarting => quiet_congr (ok.restarting restarting) taken rfl rfl rfl, ok.warm⟩
    · exact fun off => coldHeld_congr (held off) taken rfl rfl rfl rfl

end Sys2Proof.Proofs.ResetStates

/-! SUPPORT. The Pending Table (R72–R92): the entry that a repeat meets, the entry that a new ask becomes, and the two commands on
entries. -/

namespace Sys2Proof.Proofs.PendingTable

open Sys2Proof Sys2Proof.Machine Sys2Proof.Safety Sys2Proof.Proofs.WindowTable Sys2Proof.Proofs.Tables
open Sys2Proof.Proofs.Rows Sys2Proof.Proofs.Lifetime

/-! ### Repeats -/

theorem access_of_matches (s : State) (a : Ask) (slot : Slot) (distinct : SignaturesDistinct s) (meets : Matches s.entries[slot] a) :
    s.access a = s.collect slot := by
  simp only [State.access, matching_of_matches s a slot distinct meets]

theorem collect_unfinished (s : State) (slot : Slot) (unfinished : s.entries[slot].state = .queued ∨ s.entries[slot].state = .issued) :
    s.collect slot = (s, .again .pending) := by
  refine if_neg fun complete => ?_
  rw [complete] at unfinished
  exact absurd unfinished (by decide)

theorem collect_complete (s : State) (slot : Slot) (complete : s.entries[slot].state = .complete) :
    s.collect slot = (s.endEntry slot, s.entries[slot].delivery) :=
  if_pos complete

/-- The end of an entry, in the words of the statements. -/
theorem endEntry_eq (s : State) (slot : Slot) :
    s.endEntry slot = (s.setEntry slot (emptied s.entries[slot])).lowerRoute s.entries[slot].route := rfl

/-- Settles O12: no other entry has the signature, so that the ask is collected at this one, by its state. -/
theorem repeatsMeetTheirEntry : Obligations.RepeatsMeetTheirEntry := by
  refine ⟨fun s a slot running ok distinct meets unfinished => ?_, fun s a slot answer running ok distinct meets complete delivers => ?_⟩
  · rw [exec_arrival s a running ok, access_of_matches s a slot distinct meets, collect_unfinished s slot unfinished]
  · rw [exec_arrival s a running ok, access_of_matches s a slot distinct meets, collect_complete s slot complete,
      delivery_of_delivers _ _ delivers, endEntry_eq]

/-! ### New entries -/

theorem occupied_eq_false_iff (e : Entry) : e.occupied = false ↔ e.state = .free := by
  simp [Entry.occupied]

theorem occupied_iff (e : Entry) : e.occupied = true ↔ e.state ≠ .free := decide_eq_true_iff

theorem freeSlot_eq_none (s : State) (full : ∀ slot : Slot, s.entries[slot].state ≠ .free) : s.freeSlot = none := by
  refine List.find?_eq_none.2 fun slot _ free => ?_
  rw [Bool.not_eq_true', occupied_eq_false_iff] at free
  exact full slot free

/-- The FREE slot that is taken is the lowest one (R74). -/
theorem freeSlot_eq_some (s : State) (slot : Slot) (free : s.entries[slot].state = .free)
    (lowest : ∀ v : Slot, v < slot → s.entries[v].state ≠ .free) : s.freeSlot = some slot := by
  refine List.find?_eq_some_iff_getElem.2 ⟨?_, slot.val, by simp [allSlots], by simp [allSlots], fun j below => ?_⟩
  · rw [Bool.not_eq_true', occupied_eq_false_iff]
    exact free
  · have used := lowest ⟨j, below.trans slot.isLt⟩ below
    simpa [allSlots, Entry.occupied] using used

theorem acceptPending_without_slot (s : State) (x : HandOff) (full : s.freeSlot = none) :
    s.acceptPending x = (s, .again .busy) := by
  simp only [State.acceptPending, full]

theorem acceptPending_without_quota (s : State) (x : HandOff) (held : s.settings.pendingQuota ≤ s.quotaCount x.ask.requester) :
    s.acceptPending x = (s, .again .busy) := by
  unfold State.acceptPending
  split
  · rfl
  · exact if_neg (Nat.not_lt.2 held)

theorem acceptPending_created (s : State) (x : HandOff) (slot : Slot) (free : s.freeSlot = some slot)
    (quota : s.quotaCount x.ask.requester < s.settings.pendingQuota) :
    s.acceptPending x
      = (((s.setEntry slot x.entry).enqueue x.segment (.reference slot)).raiseRoute x.route, .again .pending) := by
  simp only [State.acceptPending, free, if_pos quota]

/-- Settles O13: the hand-off of an ask that is not posted, by the FREE slot and the requester's quota. -/
theorem delayedWorkIsRecorded : Obligations.DelayedWorkIsRecorded := by
  intro s a x running ok table new passes delayed
  have accept : s.accept (handOffOf a x) = s.acceptPending (handOffOf a x) := if_neg (Bool.eq_false_iff.1 delayed)
  rw [exec_arrival_of_passes s a x running ok table new passes, accept, ← quotaCount_eq]
  refine ⟨fun full => ?_, fun held => ?_, fun slot free lowest quota => ?_⟩
  · rw [acceptPending_without_slot s _ (freeSlot_eq_none s full)]
  · rw [acceptPending_without_quota s (handOffOf a x) held]
  · rw [acceptPending_created s (handOffOf a x) slot (freeSlot_eq_some s slot free lowest) quota]
    rfl

/-! ### PENDING-STATUS -/

theorem pendingStatus_runs : RowRuns .pendingStatus pendingStatusCommand := fun _ _ _ => rfl

theorem cancelRequester_runs : RowRuns .cancelRequester cancelRequesterCommand := fun _ _ _ => rfl

/-- Lists of slots are counted by the cardinality of the slots they keep. -/
theorem countP_eq_card (p : Slot → Bool) (q : Slot → Prop) [DecidablePred q] (h : ∀ x, p x = true ↔ q x) :
    allSlots.countP p = (Finset.univ.filter q).card := by
  rw [List.countP_eq_length_filter, filter_length_eq_card p q h]

theorem summaryByte_eq (e : Entry) :
    e.summaryByte = if e.state = .free then 0x00
      else byteOf ((entryStateByte e.state).toNat + (if e.state = .issued ∧ e.orphaned = true then 4 else 0) + 8 * e.requester.val) := by
  rw [entryStateByte_eq_code, Entry.summaryByte]
  by_cases free : e.state = .free
  · rw [if_pos free, if_neg (Bool.eq_false_iff.1 ((occupied_eq_false_iff e).2 free))]
  · rw [if_neg free, if_pos ((occupied_iff e).2 free)]
    rfl

theorem summaryResult_eq (s : State) :
    s.summaryResult
      = (List.finRange 16).map (fun slot : Slot =>
          if s.entries[slot].state = .free then 0x00
          else byteOf ((entryStateByte s.entries[slot].state).toNat
            + (if s.entries[slot].state = .issued ∧ s.entries[slot].orphaned = true then 4 else 0)
            + 8 * s.entries[slot].requester.val))
        ++ [byteOf (Finset.univ.filter fun slot : Slot => s.entries[slot].state = .free).card] := by
  have free : allSlots.countP (fun slot => !s.entries[slot].occupied)
      = (Finset.univ.filter fun slot : Slot => s.entries[slot].state = .free).card :=
    countP_eq_card _ _ fun slot => by rw [Bool.not_eq_true', occupied_eq_false_iff]
  simp only [State.summaryResult, free, summaryByte_eq, fieldOf_one]
  rfl

theorem statusResult_free (e : Entry) (free : e.state = .free) : e.statusResult = [0x00] := by
  rw [Entry.statusResult, (occupied_eq_false_iff e).2 free, free]
  rfl

/-- The report on an occupied entry, in the codes of R177. -/
theorem statusResult_used (e : Entry) (used : e.state ≠ .free) :
    e.statusResult
      = [entryStateByte e.state, byteOf e.requester.val, entryKindByte e.kind, spaceByte e.space, byteOf e.count,
          e.route.windowByte, e.route.generationByte, byteOf e.segment.val, absentPolicyByte e.absentPolicy,
          if e.orphaned then 0x01 else 0x00, e.outcomeByte, e.discardByte]
        ++ fieldOf 4 e.address ++ fieldOf 4 e.downstream := by
  have flags : e.flags = if e.orphaned then 0x01 else 0x00 := rfl
  rw [Entry.statusResult, if_pos ((occupied_iff e).2 used), entryStateByte_eq_code, entryKindByte_eq_code, spaceByte_eq_code,
    absentPolicyByte_eq_code, flags]
  rfl

/-- The route bytes: FFh and zero for DEFAULT, else the window and its generation (R177). -/
theorem routeBytes_eq (r : Route) (window generation : Byte)
    (h : r = .defaultRoute ∧ window = 0xFF ∧ generation = 0x00 ∨ ∃ w g, r = .window w g ∧ window = byteOf w.val ∧ generation = g) :
    r.windowByte = window ∧ r.generationByte = generation := by
  rcases h with ⟨rfl, rfl, rfl⟩ | ⟨w, g, rfl, rfl, rfl⟩ <;> exact ⟨rfl, rfl⟩

theorem outcomeBytes_unfinished (e : Entry) (unfinished : e.state ≠ .complete) : e.outcomeByte = 0x00 ∧ e.discardByte = 0x00 := by
  refine ⟨?_, if_neg unfinished⟩
  unfold Entry.outcomeByte
  split
  · rename_i complete _
    exact absurd complete unfinished
  · rfl

theorem outcomeBytes_complete (e : Entry) (o : EntryOutcome) (x : Timer) (complete : e.state = .complete) (outcome : e.outcome = some o)
    (discard : e.discard = some x) : e.outcomeByte = Safety.outcomeByte o ∧ e.discardByte = byteOf x.units := by
  refine ⟨?_, ?_⟩
  · simp only [Entry.outcomeByte, complete, outcome, outcomeByte_eq_code]
  · rw [Entry.discardByte, if_pos complete, discard]
    rfl

theorem pendingStatusCommand_summary (s : State) : pendingStatusCommand [0xFF] s = .ok (s, s.summaryResult) := rfl

theorem pendingStatusCommand_slot (s : State) (slot : Slot) :
    pendingStatusCommand [byteOf slot.val] s = .ok (s, s.entries[slot].statusResult) := by
  simp only [pendingStatusCommand, parsePendingStatus_byteOf]

/-- Settles O29: SUMMARY slot by slot, one slot by its state, its route and its outcome. -/
theorem pendingStatusReports : Obligations.PendingStatusReports := by
  intro s r member
  refine ⟨?_, fun slot => ⟨fun free => ?_, fun used window generation outcome time routed ended => ?_⟩⟩
  · rw [pendingStatus_runs.done member (by simp) (pendingStatusCommand_summary s), summaryResult_eq]
  · rw [pendingStatus_runs.done member (by simp) (pendingStatusCommand_slot s slot), statusResult_free _ free]
  · obtain ⟨windowByte, generationByte⟩ := routeBytes_eq _ window generation routed
    have bytes : s.entries[slot].outcomeByte = outcome ∧ s.entries[slot].discardByte = time := by
      rcases ended with ⟨unfinished, rfl, rfl⟩ | ⟨o, x, complete, outcomeIs, discard, rfl, rfl⟩
      · exact outcomeBytes_unfinished _ unfinished
      · exact outcomeBytes_complete _ o x complete outcomeIs discard
    rw [pendingStatus_runs.done member (by simp) (pendingStatusCommand_slot s slot), statusResult_used _ used, windowByte, generationByte,
      bytes.1, bytes.2]

/-! ### CANCEL-REQUESTER -/

theorem cancelRequesterCommand_cancels (s : State) (x : Requester) :
    cancelRequesterCommand [byteOf x.val] s = .ok (s.cancel x, s.cancelResult x) := by
  have operand : requesterOperand (byteOf x.val) = some x := requesterOperand_ofNat x
  simp [cancelRequesterCommand, parseRequester, operand]

/-- An entry after a cancellation, in the words of the statements (R88). -/
theorem cancelled_eq (e : Entry) (x : Requester) :
    e.cancelled x
      = if e.requester = x ∧ (e.state = .queued ∨ e.state = .complete) then emptied e
        else if e.requester = x ∧ e.state = .issued then { e with orphaned := true }
        else e := by
  simp only [Entry.cancelled, freedByCancel_iff, emptied_eq]

/-- The item keeps its place in a list through a cancellation, in the words of the statements (R88, R107). -/
def staysThroughCancel (s : State) (x : Requester) : Item → Bool
  | .posted _ => true
  | .reference slot => !decide (s.entries[slot].requester = x ∧ s.entries[slot].state = .queued)

theorem not_cancels_eq (s : State) (x : Requester) (i : Item) : (!s.cancels x i) = staysThroughCancel s x i := by
  cases i <;> rfl

/-- The entries and lists that a cancellation leaves, before the counts fall. -/
theorem cancelled_tables (s : State) (x : Requester) :
    (s.cancelEntries x).withdraw (s.cancels x)
      = { s with
          entries := Vector.ofFn fun slot : Slot =>
            if s.entries[slot].requester = x ∧ (s.entries[slot].state = .queued ∨ s.entries[slot].state = .complete) then
              emptied s.entries[slot]
            else if s.entries[slot].requester = x ∧ s.entries[slot].state = .issued then
              { s.entries[slot] with orphaned := true }
            else s.entries[slot]
          engines := Vector.ofFn fun n : SegmentNumber =>
            { s.engines[n] with queue := s.engines[n].queue.filter (staysThroughCancel s x) } } := by
  simp only [State.withdraw, State.cancelEntries, everyRecord, cancelled_eq, not_cancels_eq]

/-- The number of a requester's entries of one sort. -/
theorem slotsOf_length (s : State) (x : Requester) (p : Entry → Bool) (q : Slot → Prop) [DecidablePred q]
    (h : ∀ slot : Slot, p s.entries[slot] = true ↔ q slot) :
    (s.slotsOf x p).length = (Finset.univ.filter fun slot : Slot => s.entries[slot].requester = x ∧ q slot).card :=
  filter_length_eq_card _ _ fun slot => by rw [Bool.and_eq_true, decide_eq_true_iff, h]

theorem cancelResult_eq (s : State) (x : Requester) :
    s.cancelResult x
      = [byteOf (Finset.univ.filter fun slot : Slot => s.entries[slot].requester = x ∧ s.entries[slot].state = .queued).card,
          byteOf (Finset.univ.filter fun slot : Slot => s.entries[slot].requester = x ∧ s.entries[slot].state = .complete).card,
          byteOf (Finset.univ.filter fun slot : Slot =>
            s.entries[slot].requester = x ∧ s.entries[slot].state = .issued ∧ s.entries[slot].orphaned = false).card] := by
  rw [State.cancelResult, slotsOf_length s x _ (fun slot => s.entries[slot].state = .queued) fun _ => decide_eq_true_iff,
    slotsOf_length s x _ (fun slot => s.entries[slot].state = .complete) fun _ => decide_eq_true_iff,
    slotsOf_length s x _ (fun slot => s.entries[slot].state = .issued ∧ s.entries[slot].orphaned = false) fun slot => by simp]
  rfl

/-- Settles O30: the tables record by record, then the fall of the counts, and the three numbers as cardinalities. -/
theorem cancelFreesTheRequester : Obligations.CancelFreesTheRequester := by
  intro s r x member
  rw [cancelRequester_runs.done member (by simp) (cancelRequesterCommand_cancels s x), cancelResult_eq, State.cancel, cancelled_tables]
  rfl

end Sys2Proof.Proofs.PendingTable

/-! SUPPORT. The items of an engine (R79, R80, R100–R117, R129, R130): the head that it takes, the pins of its cycle, the result that it
hands back, and the work that a reset of its segment ends. -/

namespace Sys2Proof.Proofs.EngineItems

open Sys2Proof Sys2Proof.Machine Sys2Proof.Safety Sys2Proof.Proofs.Windows Sys2Proof.Proofs.Engines

/-! ### Taking the head -/

theorem exec_takeHead (s : State) (n : SegmentNumber) : exec (.takeHead n) s = .next (s.takeHead n) := rfl

theorem takeHead_of_nothing (s : State) (n : SegmentNumber)
    (nothing : s.engines[n].state ≠ .online ∨ s.engines[n].inFlight ≠ none ∨ s.engines[n].queue = []) : s.takeHead n = s := by
  unfold State.takeHead
  dsimp only
  split
  · rename_i ready
    have empty : s.engines[n].queue = [] := by
      rcases nothing with offline | busy | empty
      · exact absurd ready.1 offline
      · exact absurd ready.2 busy
      · exact empty
    rw [empty]
  · rfl

theorem takeHead_of_head (s : State) (n : SegmentNumber) (i : Item) (rest : List Item) (online : s.engines[n].state = .online)
    (idle : s.engines[n].inFlight = none) (head : s.engines[n].queue = i :: rest) :
    s.takeHead n
      = (s.startCycle n { s.engines[n] with queue := rest, inFlight := some i, kept := [] }
          ((s.job i).divide s.settings.segments[n].width)).issue i := by
  simp only [State.takeHead, online, idle, head, and_self, if_true]

/-- The start of an item's first cycle touches no entry, so that its entry may be ISSUED first. -/
theorem issue_startCycle (s : State) (n : SegmentNumber) (e : Engine) (cycles : List Cycle) (i : Item) :
    (s.startCycle n e cycles).issue i = (s.issue i).startCycle n e cycles := by
  rw [startCycle_eq, startCycle_eq]
  cases i <;> rfl

/-! ### The outputs of a segment -/

theorem activeLow_decide (p : Prop) [Decidable p] : activeLow (decide p) = .low ↔ p := by
  unfold activeLow
  split <;> simp_all

/-- The outputs that the state of the engine fixes in every phase. -/
theorem poweredPins_driven (s : State) (n : SegmentNumber) (phase : CyclePhase) :
    (s.poweredPins n phase).rst = activeLow (s.resetLine n) ∧ (∃ v, (s.poweredPins n phase).addr = .driven v)
      ∧ ∃ v, (s.poweredPins n phase).ioSel = .driven v := by
  cases current : s.engines[n].current with
  | none => rw [poweredPins_idle s n phase current]; exact ⟨rfl, ⟨_, rfl⟩, _, rfl⟩
  | some x =>
    cases phase with
    | address => rw [poweredPins_address s n x current]; exact ⟨rfl, ⟨_, rfl⟩, _, rfl⟩
    | data => rw [poweredPins_data s n x current]; exact ⟨rfl, ⟨_, rfl⟩, _, rfl⟩

theorem size_eq (l : Lanes) : l.size = if l = .both then 0x01 else 0x00 := by cases l <;> rfl

/-- The address phase, by the space of the cycle (R179). -/
theorem addressPins_show (c : Cycle) (rst : Level) :
    (c.addressPins rst).rd = .high ∧ (c.addressPins rst).wr = .high
      ∧ (c.space = .memory → (c.addressPins rst).addr = .driven (some (BitVec.ofNat 24 c.address))
          ∧ (c.addressPins rst).ioSel = .driven (some .high))
      ∧ (c.space = .io → (c.addressPins rst).addr = .driven (some (BitVec.ofNat 24 (c.address % 0x10000)))
          ∧ (c.addressPins rst).ioSel = .driven (some .low))
      ∧ (c.addressPins rst).dataLow = .driven (some (if c.lanes = .both then 0x01 else 0x00))
      ∧ (c.addressPins rst).dataHigh = .driven (some 0x00) := by
  refine ⟨rfl, rfl, fun memory => ?_, fun io => ?_, ?_, rfl⟩
  · simp [Cycle.addressPins, Cycle.addressBits, memory, activeLow]
  · simp [Cycle.addressPins, Cycle.addressBits, io, activeLow]
  · rw [← size_eq]; rfl

/-- The data phase, by the kind of the cycle and its lanes (R116, R179). -/
theorem dataPins_show (c : Cycle) (rst : Level) :
    ((c.dataPins rst).rd = .low ↔ c.kind = .read) ∧ ((c.dataPins rst).wr = .low ↔ c.kind = .write)
      ∧ (c.kind = .read →
          (c.lanes ≠ .high → (c.dataPins rst).dataLow = .floating) ∧ (c.lanes ≠ .low → (c.dataPins rst).dataHigh = .floating))
      ∧ (c.kind = .write →
          (c.lanes ≠ .high → (c.dataPins rst).dataLow = .driven c.data[0]?)
          ∧ (c.lanes = .high → (c.dataPins rst).dataHigh = .driven c.data[0]?)
          ∧ (c.lanes = .both → (c.dataPins rst).dataHigh = .driven c.data[1]?)) := by
  refine ⟨activeLow_decide _, activeLow_decide _, fun read => ?_, fun write => ?_⟩
  · have halves : c.dataHalves = c.lanes.listens := by rw [Cycle.dataHalves, read]
    simp only [Cycle.dataPins, halves]
    cases c.lanes <;> simp [Lanes.listens]
  · have halves : c.dataHalves = c.drives := by rw [Cycle.dataHalves, write]
    simp only [Cycle.dataPins, halves, Cycle.drives]
    cases c.lanes <;> simp

/-- Settles O34: what `takeHead` does by the engine's state, and the pins by the power, the current cycle and its phase. -/
theorem engineTakesTheHead : Obligations.EngineTakesTheHead := by
  refine ⟨fun s n => ⟨fun nothing => ?_, fun i rest online idle head j t item => ?_⟩, fun s n phase => ⟨fun off => ?_, fun on => ?_⟩⟩
  · rw [exec_takeHead, takeHead_of_nothing s n nothing]
  · have job : s.job i = j ∧ s.issue i = t := by
      rcases item with ⟨p, rfl, rfl, rfl⟩ | ⟨slot, rfl, rfl, rfl⟩ <;> exact ⟨rfl, rfl⟩
    obtain ⟨rfl, rfl⟩ := job
    rw [exec_takeHead, takeHead_of_head s n i rest online idle head, issue_startCycle, startCycle_eq]
    cases i <;> rfl
  · rw [segmentPins_off s n phase off]
    exact ⟨rfl, rfl, rfl, rfl, rfl, rfl⟩
  · rw [segmentPins_powered s n phase on]
    obtain ⟨rst, addr, ioSel⟩ := poweredPins_driven s n phase
    refine ⟨?_, addr, ioSel, fun none => ?_, fun x current => ⟨?_, ?_⟩⟩
    · rw [rst, resetLine_low]
      exact or_iff_right on
    · rw [poweredPins_idle s n phase none]
      exact ⟨rfl, rfl⟩
    · rintro rfl
      rw [poweredPins_address s n x current]
      exact addressPins_show x.cycle _
    · rintro rfl
      rw [poweredPins_data s n x current]
      exact dataPins_show x.cycle _

/-! ### Handing back a result -/

theorem handBack_posted_done (s : State) (n : SegmentNumber) (p : PostedItem) (result : ItemResult) (kept : List Byte)
    (done : lossOf result p.absentPolicy = none) : s.handBack n (.posted p) result kept = s.lowerRoute p.route := by
  simp only [State.handBack, done]

theorem handBack_posted_lost (s : State) (n : SegmentNumber) (p : PostedItem) (result : ItemResult) (kept : List Byte) (cause : LossCause)
    (lost : lossOf result p.absentPolicy = some cause) :
    s.handBack n (.posted p) result kept = (s.raise (.writeLost n p.downstream cause) 1).lowerRoute p.route := by
  simp only [State.handBack, lost]

/-- Settles O35: an entry by its orphaned flag, a posted item by the loss that R105 makes of its result. -/
theorem resultsAreHandedBack : Obligations.ResultsAreHandedBack := by
  intro s n result kept
  refine ⟨fun slot orphaned => handBack_orphan s n slot result kept orphaned, fun slot awaited => ?_, fun p => ⟨fun fine => ?_,
    fun silent fault => ?_, fun error => ?_⟩⟩
  · rw [handBack_entry s n slot result kept awaited]
    cases result <;> rfl
  · refine handBack_posted_done s n p result kept ?_
    rcases fine with rfl | ⟨rfl, ones⟩
    · rfl
    · rw [ones]; rfl
  · exact handBack_posted_lost s n p result kept .noResponse (by rw [silent, fault]; rfl)
  · exact handBack_posted_lost s n p result kept .targetError (by rw [error]; rfl)

/-! ### The reset of one segment -/

/-- RESET-SEGMENT before the counts fall (R129, R130). -/
def resetClaim (s : State) (n : SegmentNumber) : State :=
  (((referencedSlots s.engines[n].items).foldl State.resetEntry s).setEngine n
    (.resettingTo s.engines[n].returnAfterReset s.settings.segments[n].resetPulse)).raiseLost n .segmentReset
    (postedItems s.engines[n].items)

theorem resetSegment_eq_lowerRoutes (s : State) (n : SegmentNumber) :
    s.resetSegment n = (resetClaim s n).lowerRoutes (s.endedRoutes n) := rfl

theorem resetClaim_entry (s : State) (n : SegmentNumber) (ok : ReferencesOk s) (slot : Slot) :
    (resetClaim s n).entries[slot]
      = if slot ∈ referencedSlots s.engines[n].items then
          if s.entries[slot].orphaned = true then emptied s.entries[slot]
          else finished s.entries[slot] .segmentReset none s.settings.discardInterval
        else s.entries[slot] := by
  rw [resetClaim, raiseLost_eq]
  exact (resetEntry_fold s (referencedSlots s.engines[n].items) (items_refer_once s n ok) s (fun _ _ => rfl) rfl).1 slot

theorem resetClaim_engine (s : State) (n m : SegmentNumber) :
    (resetClaim s n).engines[m]
      = if m = n then .resettingTo s.engines[n].returnAfterReset s.settings.segments[n].resetPulse else s.engines[m] := by
  rw [resetClaim, raiseLost_eq, State.setNotices_engines, engine_after_set, foldl_resetEntry_eq]

theorem resetClaim_frame (s : State) (n : SegmentNumber) :
    resetClaim s n = { s with
      entries := (resetClaim s n).entries
      engines := (resetClaim s n).engines
      notices := lostNotice n .segmentReset (postedItems s.engines[n].items) s.notices } := by
  rw [resetClaim, raiseLost_eq, foldl_resetEntry_eq]
  rfl

theorem endedRoutes_eq (s : State) (n : SegmentNumber) :
    s.endedRoutes n
      = (postedItems s.engines[n].items).map PostedItem.route
        ++ ((referencedSlots s.engines[n].items).filter fun slot => s.entries[slot].orphaned).map fun slot => s.entries[slot].route := by
  simp only [State.endedRoutes, State.heldSlots, beq_true]

/-- Settles O39: no slot is referred to twice, so that each entry ends once; then the counts fall. -/
theorem resetSegmentFinishesTheWork : Obligations.ResetSegmentFinishesTheWork := by
  intro s n ok
  refine ⟨resetClaim s n, resetClaim_entry s n ok, resetClaim_engine s n, resetClaim_frame s n, ?_⟩
  rw [resetSegment_eq_lowerRoutes, endedRoutes_eq]

end Sys2Proof.Proofs.EngineItems

/-! SUPPORT. The current cycles through every step (R118, R130, R134): a current cycle is an earlier one or has a number not given before,
whatever state the engines are in. -/

namespace Sys2Proof.Proofs.CurrentCycles

open Sys2Proof Sys2Proof.Machine Sys2Proof.Safety Sys2Proof.Proofs.Effects
open Sys2Proof.Proofs.Scope Sys2Proof.Proofs.WindowTable Sys2Proof.Proofs.Windows Sys2Proof.Proofs.Engines Sys2Proof.Proofs.Tables

/-! ### The current cycle of one engine -/

/-- A cycle that is current now was current before, its timer left aside, or has a number from `k` on (log 17). -/
def CycleFollows (k : Nat) (before now : Option RunningCycle) : Prop :=
  ∀ y, now = some y → (∃ x, before = some x ∧ x.cycle = y.cycle ∧ x.number = y.number) ∨ k ≤ y.number

theorem CycleFollows.refl (k : Nat) (c : Option RunningCycle) : CycleFollows k c c := fun y current => .inl ⟨y, current, rfl, rfl⟩

theorem CycleFollows.stopped (k : Nat) (c : Option RunningCycle) : CycleFollows k c none := fun _ current => nomatch current

theorem CycleFollows.trans {j k : Nat} {a b c : Option RunningCycle} (first : CycleFollows j a b) (second : CycleFollows k b c)
    (later : j ≤ k) : CycleFollows j a c := by
  intro z current
  rcases second z current with ⟨y, hy, cycle, number⟩ | fresh
  · rcases first y hy with ⟨x, hx, cycle', number'⟩ | fresh
    · exact .inl ⟨x, hx, cycle'.trans cycle, number'.trans number⟩
    · exact .inr (number ▸ fresh)
  · exact .inr (later.trans fresh)

theorem CycleFollows.ticks (k : Nat) (c : Option RunningCycle) : CycleFollows k c (c.map RunningCycle.tick) := by
  intro y current
  obtain ⟨x, hx, rfl⟩ := Option.map_eq_some_iff.1 current
  exact .inl ⟨x, hx, rfl, rfl⟩

/-! ### All current cycles -/

/-- What every step of the part does from any state: settings in their ranges stay there (R158, R163), the count of cycles never falls,
and each current cycle follows the one before by that count (R118, log 17). -/
structure CyclesFollow (s t : State) : Prop where
  settings : SettingsOk s.settings → SettingsOk t.settings
  started : s.cyclesStarted ≤ t.cyclesStarted
  current : ∀ n : SegmentNumber, CycleFollows s.cyclesStarted s.engines[n].current t.engines[n].current

theorem CyclesFollow.trans {s t u : State} (first : CyclesFollow s t) (second : CyclesFollow t u) : CyclesFollow s u :=
  ⟨second.settings ∘ first.settings, first.started.trans second.started,
    fun n => (first.current n).trans (second.current n) first.started⟩

theorem cyclesFollow_of_sameEngines {s t : State} (engines : t.engines = s.engines) (started : t.cyclesStarted = s.cyclesStarted)
    (settings : t.settings = s.settings) : CyclesFollow s t :=
  ⟨fun ok => settings.symm ▸ ok, started.ge, fun n => by rw [engines]; exact .refl _ _⟩

theorem cyclesFollow_refl (s : State) : CyclesFollow s s := cyclesFollow_of_sameEngines rfl rfl rfl

theorem cyclesFollow_of_sameTables {s t : State} (same : SameTables s t) : CyclesFollow s t :=
  cyclesFollow_of_sameEngines same.engines same.cyclesStarted same.settings

theorem cyclesFollow_of_frame {s t : State} (frame : SameButWindows s t) : CyclesFollow s t :=
  cyclesFollow_of_sameEngines frame.engines frame.cyclesStarted frame.settings

theorem cyclesFollow_setEntry (s : State) (slot : Slot) (e : Entry) : CyclesFollow s (s.setEntry slot e) :=
  cyclesFollow_of_sameEngines rfl rfl rfl

theorem cyclesFollow_setEngine (s : State) (n : SegmentNumber) (e : Engine)
    (follows : CycleFollows s.cyclesStarted s.engines[n].current e.current) : CyclesFollow s (s.setEngine n e) := by
  refine ⟨id, le_rfl, fun m => ?_⟩
  rw [engine_after_set]
  by_cases here : m = n
  · rw [if_pos here, here]; exact follows
  · rw [if_neg here]; exact .refl _ _

theorem cyclesFollow_withdraw (s : State) (gone : Item → Bool) : CyclesFollow s (s.withdraw gone) :=
  ⟨id, le_rfl, fun n => by rw [withdraw_engine]; exact .refl _ _⟩

theorem cyclesFollow_enqueue (s : State) (n : SegmentNumber) (i : Item) : CyclesFollow s (s.enqueue n i) :=
  cyclesFollow_setEngine s n _ (.refl _ _)

/-- A start makes no cycle current but a new one, under the next number (R117, log 17). -/
theorem cyclesFollow_startCycle (s : State) (n : SegmentNumber) (e : Engine) (cycles : List Cycle) :
    CyclesFollow s (s.startCycle n e cycles) := by
  cases cycles with
  | nil => exact cyclesFollow_setEngine s n _ (.stopped _ _)
  | cons c cs =>
    have engine := cyclesFollow_setEngine s n
      { e with
        current := some ⟨c, Timer.start Config.cycleUnit s.settings.segments[n].cycleTimeout, s.cyclesStarted⟩
        remaining := cs } fun y current => by cases current; exact .inr le_rfl
    exact ⟨id, Nat.le_succ _, engine.current⟩

/-! ### The end of an item -/

theorem cyclesFollow_handBack (s : State) (n : SegmentNumber) (i : Item) (result : ItemResult) (kept : List Byte) :
    CyclesFollow s (s.handBack n i result kept) :=
  cyclesFollow_of_sameEngines (handBack_engines s n i result kept) (handBack_cyclesStarted s n i result kept)
    (handBack_settings s n i result kept)

theorem cyclesFollow_endItem (s : State) (n : SegmentNumber) (result : ItemResult) : CyclesFollow s (s.endItem n result) := by
  unfold State.endItem
  dsimp only
  split
  · exact cyclesFollow_refl s
  · exact (cyclesFollow_setEngine s n s.engines[n].idle (.stopped _ _)).trans (cyclesFollow_handBack _ n _ result _)

theorem cyclesFollow_countNoResponses (s : State) (n : SegmentNumber) (count : Nat) : CyclesFollow s (s.countNoResponses n count) :=
  cyclesFollow_setEngine s n _ (.refl _ _)

theorem cyclesFollow_faultSegment (s : State) (n : SegmentNumber) (cause : FaultCause) : CyclesFollow s (s.faultSegment n cause) := by
  refine .trans ?_ (cyclesFollow_of_frame (raise_frame _ _ _))
  exact cyclesFollow_setEngine s n _ (.refl _ _)

/-- A failing cycle ends its item, sets the count and may fault the segment: no cycle starts (R120, R121, R124). -/
theorem cyclesFollow_fails (s : State) (n : SegmentNumber) (result : ItemResult) (count : Nat) :
    CyclesFollow s ((s.endItem n result).countNoResponses n count) :=
  (cyclesFollow_endItem s n result).trans (cyclesFollow_countNoResponses _ n count)

theorem cyclesFollow_timeOut (s : State) (n : SegmentNumber) : CyclesFollow s (s.timeOut n) := by
  unfold State.timeOut
  split
  · dsimp only
    split
    · exact (cyclesFollow_fails s n _ _).trans (cyclesFollow_faultSegment _ n _)
    · exact cyclesFollow_fails s n _ _
  · exact cyclesFollow_refl s

theorem cyclesFollow_errCycle (s : State) (answered : CycleName) : CyclesFollow s (s.errCycle answered) := by
  unfold State.errCycle
  dsimp only
  split
  · exact cyclesFollow_refl s
  · split
    · exact (cyclesFollow_fails s _ _ _).trans (cyclesFollow_faultSegment _ _ _)
    · exact cyclesFollow_fails s _ _ _

theorem cyclesFollow_acknowledge (s : State) (answered : CycleName) (data : BitVec 16) :
    CyclesFollow s (s.acknowledge answered data) := by
  unfold State.acknowledge
  dsimp only
  split
  · exact cyclesFollow_refl s
  · split
    · refine .trans ?_ (cyclesFollow_endItem _ _ _)
      exact cyclesFollow_setEngine s _ _ (.refl _ _)
    · exact cyclesFollow_startCycle s _ _ _

theorem cyclesFollow_takeHead (s : State) (n : SegmentNumber) : CyclesFollow s (s.takeHead n) := by
  have issued (t : State) (i : Item) : CyclesFollow t (t.issue i) := by
    cases i with
    | posted p => exact cyclesFollow_refl t
    | reference slot => exact cyclesFollow_setEntry t slot _
  unfold State.takeHead
  dsimp only
  split
  · split
    · exact cyclesFollow_refl s
    · exact (cyclesFollow_startCycle s n _ _).trans (issued _ _)
  · exact cyclesFollow_refl s

/-! ### The other effects -/

theorem cyclesFollow_accept (s : State) (x : HandOff) : CyclesFollow s (s.accept x).1 := by
  rcases accept_cases s x with refused | ⟨-, posted⟩ | ⟨slot, -, pending⟩
  · rw [refused]; exact cyclesFollow_refl s
  · rw [posted]; exact (cyclesFollow_enqueue s _ _).trans (cyclesFollow_of_frame (raiseRoute_frame _ _))
  · rw [pending]
    exact ((cyclesFollow_setEntry s slot _).trans (cyclesFollow_enqueue _ _ _)).trans
      (cyclesFollow_of_frame (raiseRoute_frame _ _))

theorem cyclesFollow_turn (s : State) (n : SegmentNumber) (e : Engine) (turn : EngineTurn s.engines[n] e) :
    CyclesFollow s (s.setEngine n e) := by
  have same : e.current = s.engines[n].current := by cases turn <;> rfl
  exact cyclesFollow_setEngine s n e (same ▸ .refl _ _)

theorem cyclesFollow_abandon (s : State) (w : WindowNumber) : CyclesFollow s (s.abandon w) := by
  unfold State.abandon
  dsimp only
  rw [abandonItems_eq, foldl_completeEntry_eq]
  refine .trans ?_ (cyclesFollow_of_frame (lower_frame _ w _))
  have closed : CyclesFollow s (s.setWindow w (s.windows[w].closed .abandoned)) := cyclesFollow_of_frame (setWindow_frame s w _)
  refine (closed.trans ?_).trans (cyclesFollow_of_sameTables (sameTables_setNotices _ _))
  refine .trans ?_ (cyclesFollow_withdraw _ _)
  exact cyclesFollow_of_sameEngines rfl rfl rfl

theorem cyclesFollow_cancel (s : State) (r : Requester) : CyclesFollow s (s.cancel r) := by
  have entries : CyclesFollow s (s.cancelEntries r) := cyclesFollow_of_sameEngines rfl rfl rfl
  exact (entries.trans (cyclesFollow_withdraw _ _)).trans (cyclesFollow_of_frame (lowerRoutes_frame _ _))

/-- A segment reset stops its cycle (R130). -/
theorem cyclesFollow_resetSegment (s : State) (n : SegmentNumber) : CyclesFollow s (s.resetSegment n) := by
  obtain ⟨notices, reset⟩ := resetSegment_eq s n
  rw [reset]
  refine .trans ?_ (cyclesFollow_of_frame (lowerRoutes_frame _ _))
  refine .trans ?_ (cyclesFollow_of_sameTables (sameTables_setNotices _ _))
  refine .trans ?_ (cyclesFollow_setEngine _ n _ (.stopped _ _))
  exact cyclesFollow_of_sameEngines rfl rfl rfl

/-- A warm reset stops every cycle and leaves the count of cycles (R134, log 17). -/
theorem cyclesFollow_warmReset (s : State) : CyclesFollow s s.warmReset := by
  refine ⟨fun _ => settingsOk_initial, le_rfl, fun n => ?_⟩
  have after : s.warmReset.engines[n] = _ := warmReset_engine s n
  rw [after]
  exact .stopped _ _

/-- The fall of PWRGOOD stops every cycle and leaves the count of cycles (R135, log 17). -/
theorem cyclesFollow_coldReset (s : State) : CyclesFollow s s.coldReset :=
  ⟨fun _ => settingsOk_initial, le_rfl, fun n => by rw [coldReset_engine]; exact .stopped _ _⟩

theorem cyclesFollow_tick (s : State) : CyclesFollow s s.tick :=
  ⟨id, le_rfl, fun n => by rw [tick_engine]; exact .ticks _ _⟩

theorem cyclesFollow_of_effect {s t : State} (h : Effect s t) : CyclesFollow s t := by
  cases h with
  | nothing => exact cyclesFollow_refl s
  | endsEntry slot => exact (cyclesFollow_setEntry s slot _).trans (cyclesFollow_of_frame (lowerRoute_frame _ _))
  | accepts a x => exact cyclesFollow_accept s x
  | opens w => exact cyclesFollow_of_frame (setWindow_frame s w _)
  | amends w => exact cyclesFollow_of_frame (setWindow_frame s w _)
  | renews w => exact cyclesFollow_of_frame (setWindow_frame s w _)
  | freezes w => exact cyclesFollow_of_frame (setWindow_frame s w _)
  | closes w => exact cyclesFollow_of_frame ((setWindow_frame s w _).trans (settle_frame _ w))
  | abandons w => exact cyclesFollow_abandon s w
  | cancels r => exact cyclesFollow_cancel s r
  | turns n e turn => exact cyclesFollow_turn s n e turn
  | resets n => exact cyclesFollow_resetSegment s n
  | takesHead n => exact cyclesFollow_takeHead s n
  | acknowledges answered data => exact cyclesFollow_acknowledge s answered data
  | timesOut n => exact cyclesFollow_timeOut s n
  | errs answered => exact cyclesFollow_errCycle s answered
  | warms => exact cyclesFollow_warmReset s
  | writes name value v field written =>
    exact ⟨write_keeps_settingsOk s.settings v name value field written, le_rfl, fun _ => .refl _ _⟩

/-! ### Every step -/

theorem step_keeps_enginesOk (s t : State) (ok : EnginesOk s) (h : step s = .next t) : EnginesOk t :=
  step_keeps EnginesOk
    (fun _ _ same => (enginesMove_of_sameEngines same.engines same.cyclesStarted same.settings).enginesOk)
    (fun s => (enginesMove_tick s).enginesOk) (fun s _ => enginesOk_of_cold _ rfl (coldReset_engine s))
    (fun _ _ effect ok => (enginesMove_of_effect effect ok).enginesOk ok) s t ok h

/-- What follows a state still follows it after one more step. -/
theorem step_cyclesFollow (s t : State) (h : step s = .next t) : CyclesFollow s t :=
  step_keeps (CyclesFollow s) (fun _ _ same follows => follows.trans (cyclesFollow_of_sameTables same))
    (fun u follows => follows.trans (cyclesFollow_tick u)) (fun u follows => follows.trans (cyclesFollow_coldReset u))
    (fun _ _ effect follows => follows.trans (cyclesFollow_of_effect effect)) s t (cyclesFollow_refl s) h

/-- Settles O56: each engine outlasts every effect by its moves, and a start, which alone makes a cycle current, gives it the count of
cycles as its number, which no reset lowers. -/
theorem stepsKeepSettingsAndEngines : Obligations.StepsKeepSettingsAndEngines := by
  intro s t h
  have follows := step_cyclesFollow s t h
  exact ⟨follows.settings, fun ok => step_keeps_enginesOk s t ok h, follows.started, follows.current⟩

end Sys2Proof.Proofs.CurrentCycles

/-! SUPPORT. The cycles of an item (R115–R120): its division at each width, and what an acknowledgement makes of its engine. -/

namespace Sys2Proof.Proofs.Cycles

open Sys2Proof Sys2Proof.Machine Sys2Proof.Safety Sys2Proof.Proofs.Scope

/-! ### Width 8 -/

/-- The byte cycle at width 8 for the byte `k` places after `address`, of data that begins at `address` (R115). -/
def byteCycleAt (j : Job) (address : Nat) (data : List Byte) (k : Nat) : Cycle :=
  { space := j.space, kind := j.kind, address := address + k, lanes := .low, data := (data.drop k).take 1 }

/-- Counted from the next byte on, the byte before is one place nearer. -/
theorem byteCycleAt_next (j : Job) (address : Nat) (data : List Byte) (k : Nat) :
    byteCycleAt j (address + 1) (data.drop 1) k = byteCycleAt j address data (k + 1) := by
  unfold byteCycleAt
  rw [List.drop_drop, Nat.add_assoc, Nat.add_comm 1 k]

theorem byteCycles_eq_map_range (j : Job) (count address : Nat) (data : List Byte) :
    byteCycles j count address data = (List.range count).map (byteCycleAt j address data) := by
  induction count generalizing address data with
  | zero => rfl
  | succ count ih =>
    have later : byteCycleAt j (address + 1) (data.drop 1) = byteCycleAt j address data ∘ Nat.succ :=
      funext (byteCycleAt_next j address data)
    rw [byteCycles, ih, later, List.range_succ_eq_map, List.map_cons, List.map_map]
    rfl

/-- Settles O32, by induction on the number of bytes. -/
theorem widthEightDivision : Obligations.WidthEightDivision := fun j =>
  byteCycles_eq_map_range j j.count j.downstream j.data

/-! ### Width 16 -/

theorem divide_sixteen_even (j : Job) (even : j.downstream % 2 = 0) :
    j.divide .sixteen = wordCycles j j.count j.downstream j.data :=
  if_neg (by omega)

theorem divide_sixteen_odd (j : Job) (nonempty : 1 ≤ j.count) (odd : j.downstream % 2 = 1) :
    j.divide .sixteen
      = ⟨j.space, j.kind, j.downstream, .high, j.data.take 1⟩
        :: wordCycles j (j.count - 1) (j.downstream + 1) (j.data.drop 1) :=
  if_pos ⟨odd, nonempty⟩

/-- A nonempty run of addresses is its first one and the run after it. -/
theorem addresses_cons (address count : Nat) (nonempty : 1 ≤ count) :
    (List.range count).map (fun k => address + k)
      = address :: (List.range (count - 1)).map (fun k => address + 1 + k) := by
  obtain ⟨rest, rfl⟩ := Nat.exists_eq_add_of_le' nonempty
  simp only [Nat.add_sub_cancel, List.range_succ_eq_map, List.map_cons, List.map_map, Nat.add_zero, List.cons.injEq, true_and]
  exact List.map_congr_left fun k _ => Nat.add_right_comm address k 1

/-- Settles O33: from an even address the division is `wordCycles`; at an odd one a byte cycle stands before it. -/
theorem widthSixteenDivision : Obligations.WidthSixteenDivision := by
  intro j nonempty
  dsimp only
  rcases Nat.mod_two_eq_zero_or_one j.downstream with even | odd
  · obtain ⟨number, addresses, lanes, data⟩ := wordCycles_division j j.count j.downstream j.data even
    rw [divide_sixteen_even j even, even]
    refine ⟨by rw [number]; omega, addresses, fun c hc => ?_, data⟩
    obtain ⟨space, kind, notHigh, aligned⟩ := lanes c hc
    exact ⟨space, kind, iff_of_false notHigh (by omega), fun _ => aligned⟩
  · obtain ⟨number, addresses, lanes, data⟩ :=
      wordCycles_division j (j.count - 1) (j.downstream + 1) (j.data.drop 1) (by omega)
    rw [divide_sixteen_odd j nonempty odd, odd]
    refine ⟨by rw [List.length_cons, number]; omega, ?_, List.forall_mem_cons.2 ⟨?_, fun c hc => ?_⟩, fun whole => ?_⟩
    · rw [List.flatMap_cons, addresses, addresses_cons _ _ nonempty]
      rfl
    · exact ⟨rfl, rfl, iff_of_true rfl odd, fun notHigh => absurd rfl notHigh⟩
    · obtain ⟨space, kind, notHigh, aligned⟩ := lanes c hc
      exact ⟨space, kind, iff_of_false notHigh (by omega), fun _ => aligned⟩
    · obtain ⟨bytes, lengths⟩ := data (by rw [List.length_drop, whole])
      refine ⟨?_, List.forall_mem_cons.2 ⟨?_, lengths⟩⟩
      · rw [List.flatMap_cons, bytes]
        exact List.take_append_drop 1 j.data
      · rw [List.length_take, whole]
        exact Nat.min_eq_left nonempty

/-! ### Acknowledged cycles -/

theorem exec_cycleAcknowledged (s : State) (answered : CycleName) (data : BitVec 16) :
    exec (.cycleAcknowledged answered data) s = .next (s.acknowledge answered data) := rfl

/-- The acknowledgement of a cycle with cycles left after it starts the first of them (R119, R120). -/
theorem acknowledge_goesOn (s : State) (n : SegmentNumber) (data : BitVec 16) (x : RunningCycle) (c : Cycle) (cs : List Cycle)
    (current : s.engines[n].current = some x) (left : s.engines[n].remaining = c :: cs) :
    s.acknowledge ⟨n, x.number⟩ data
      = s.startCycle n
          { s.engines[n] with kept := s.engines[n].kept ++ returned x.cycle data, noResponses := 0 } (c :: cs) := by
  simp only [State.acknowledge, answeredCycle_some s ⟨n, x.number⟩ x current rfl, left, taken_eq]

/-- The acknowledgement of the last cycle ends its item with OK (R119, R120). -/
theorem acknowledge_ends (s : State) (n : SegmentNumber) (data : BitVec 16) (x : RunningCycle)
    (current : s.engines[n].current = some x) (last : s.engines[n].remaining = []) :
    s.acknowledge ⟨n, x.number⟩ data
      = (s.setEngine n
          { s.engines[n] with kept := s.engines[n].kept ++ returned x.cycle data, noResponses := 0 }).endItem n .ok := by
  simp only [State.acknowledge, answeredCycle_some s ⟨n, x.number⟩ x current rfl, last, taken_eq]

/-- An item that ends at an engine just written is handed back from the engine written IDLE (R121). -/
theorem setEngine_endItem (s : State) (n : SegmentNumber) (e : Engine) (i : Item) (result : ItemResult)
    (held : e.inFlight = some i) :
    (s.setEngine n e).endItem n result = (s.setEngine n (idled e)).handBack n i result e.kept := by
  have written : (s.setEngine n e).engines[n] = e := by rw [engine_after_set, if_pos rfl]
  rw [endItem_eq_handBack _ n i result (by rw [written, held]), written, setEngine_twice]

/-- Settles O36: a late signal is disregarded; the current cycle's goes on or ends the item, by the cycles left. -/
theorem acknowledgedCycles : Obligations.AcknowledgedCycles := by
  intro s n k data
  rw [exec_cycleAcknowledged]
  refine ⟨fun late => by rw [acknowledge_late s ⟨n, k⟩ data late], ?_⟩
  rintro x current rfl
  refine ⟨fun c cs left => ?_, fun i last held => ?_⟩
  · rw [acknowledge_goesOn s n data x c cs current left]
    rfl
  · rw [acknowledge_ends s n data x current last, setEngine_endItem s n _ i .ok (by exact held)]
    rfl

end Sys2Proof.Proofs.Cycles

/-! SUPPORT. The segment commands and the notice commands on the operand blocks of the statements (R126–R130, R133, R148–R151): what each
state refuses, and what a command that is accepted sets and answers. -/

namespace Sys2Proof.Proofs.EngineCommands

open Sys2Proof Sys2Proof.Machine Sys2Proof.Safety Sys2Proof.Proofs.Rows Sys2Proof.Proofs.Lifetime

theorem bringOnline_runs : RowRuns .bringOnline bringOnlineCommand := fun _ _ _ => rfl

theorem takeOffline_runs : RowRuns .takeOffline takeOfflineCommand := fun _ _ _ => rfl

theorem resume_runs : RowRuns .resume resumeCommand := fun _ _ _ => rfl

theorem resetSegment_runs : RowRuns .resetSegment resetSegmentCommand := fun _ _ _ => rfl

theorem segmentStatus_runs : RowRuns .segmentStatus segmentStatusCommand := fun _ _ _ => rfl

theorem resumeNotices_runs : RowRuns .resumeNotices resumeNoticesCommand := fun _ _ _ => rfl

theorem noticeStatus_runs : RowRuns .noticeStatus noticeStatusCommand := fun _ _ _ => rfl

/-! ### The segment commands -/

theorem segmentBlock_short (n : SegmentNumber) : [byteOf n.val].length ≤ 24 := by simp

section
variable (s : State) (n : SegmentNumber)

theorem bringOnlineCommand_eq :
    bringOnlineCommand [byteOf n.val] s
      = if s.engines[n].state = .offline then .ok (s.setEngine n { s.engines[n] with state := .online }, [0x01])
        else .error .wrongState := by
  simp only [bringOnlineCommand, parseSegment_byteOf]
  rfl

theorem busy_or_queue_iff (e : Engine) : (e.busy = true ∨ e.queue ≠ []) ↔ (e.inFlight ≠ none ∨ e.queue ≠ []) := by
  rw [Engine.busy, Option.isSome_iff_ne_none]

theorem takeOfflineCommand_eq :
    takeOfflineCommand [byteOf n.val] s
      = if s.engines[n].state = .offline ∨ s.engines[n].state = .resetting then .error .wrongState
        else if s.engines[n].inFlight ≠ none ∨ s.engines[n].queue ≠ [] then .error .busy
        else .ok (s.setEngine n { s.engines[n] with state := .offline, noResponses := 0, faultCause := .none }, [0x00]) := by
  simp only [takeOfflineCommand, parseSegment_byteOf, busy_or_queue_iff]
  rfl

theorem resumeCommand_eq :
    resumeCommand [byteOf n.val] s
      = if s.engines[n].state = .faulted then
          .ok (s.setEngine n { s.engines[n] with state := .online, noResponses := 0, faultCause := .none }, [0x01])
        else .error .wrongState := by
  simp only [resumeCommand, parseSegment_byteOf]
  rfl

/-- The answer of RESET-SEGMENT, in the words of the statements (R130, R177). -/
theorem resetResult_eq :
    s.resetResult n
      = [0x03, if s.engines[n].state = .offline then 0x00 else 0x01,
          byteOf ((referencedSlots s.engines[n].items).countP fun slot => !s.entries[slot].orphaned),
          byteOf s.engines[n].postedCount] := by
  have returnState : s.engines[n].returnAfterReset.code = if s.engines[n].state = .offline then 0x00 else 0x01 := by
    unfold Engine.returnAfterReset
    split <;> rfl
  have completed : (s.heldSlots n false).length
      = (referencedSlots s.engines[n].items).countP fun slot => !s.entries[slot].orphaned := by
    simp only [State.heldSlots, beq_false, List.countP_eq_length_filter]
  have lost : (postedItems s.engines[n].items).length = s.engines[n].postedCount := postedItems_length _
  rw [State.resetResult, returnState, completed, lost]
  rfl

theorem resetSegmentCommand_eq :
    resetSegmentCommand [byteOf n.val] s
      = if s.engines[n].state = .resetting then .error .busy
        else .ok (s.resetSegment n,
          [0x03, if s.engines[n].state = .offline then 0x00 else 0x01,
            byteOf ((referencedSlots s.engines[n].items).countP fun slot => !s.entries[slot].orphaned),
            byteOf s.engines[n].postedCount]) := by
  simp only [resetSegmentCommand, parseSegment_byteOf, resetResult_eq]

end

/-- Settles O38: each command by the state of its engine, TAKE-OFFLINE also by the work that it finds. -/
theorem segmentCommandsAnswer : Obligations.SegmentCommandsAnswer := by
  refine ⟨fun s r n member => ?_, fun s r n member => ?_⟩
  · have short := segmentBlock_short n
    have takes := takeOfflineCommand_eq s n
    refine ⟨fun offline => ?_, fun other => ?_, fun down => ?_, fun up => ?_, fun faulted => ?_, fun other => ?_⟩
    · exact bringOnline_runs.done member short ((bringOnlineCommand_eq s n).trans (if_pos offline))
    · exact bringOnline_runs.refused member short ((bringOnlineCommand_eq s n).trans (if_neg other))
    · exact takeOffline_runs.refused member short (takes.trans (if_pos down))
    · have notDown : ¬ (s.engines[n].state = .offline ∨ s.engines[n].state = .resetting) := by
        rcases up with online | faulted
        · rw [online]; decide
        · rw [faulted]; decide
      rw [if_neg notDown] at takes
      exact ⟨fun work => takeOffline_runs.refused member short (takes.trans (if_pos work)),
        fun idle empty => takeOffline_runs.done member short
          (takes.trans (if_neg (not_or.2 ⟨not_not.2 idle, not_not.2 empty⟩)))⟩
    · exact resume_runs.done member short ((resumeCommand_eq s n).trans (if_pos faulted))
    · exact resume_runs.refused member short ((resumeCommand_eq s n).trans (if_neg other))
  · have short := segmentBlock_short n
    exact ⟨fun resetting => resetSegment_runs.refused member short ((resetSegmentCommand_eq s n).trans (if_pos resetting)),
      fun other => resetSegment_runs.done member short ((resetSegmentCommand_eq s n).trans (if_neg other))⟩

/-! ### SEGMENT-STATUS -/

/-- The posted count is that of the list, and one more where a posted item is in flight (R95). -/
theorem postedCount_eq (e : Engine) :
    e.postedCount = (postedItems e.queue).length + if e.inFlight.any Item.isPosted then 1 else 0 := by
  rw [postedItems_length, Engine.postedCount, Engine.items, List.countP_append, Nat.add_comm]
  cases e.inFlight with
  | none => rfl
  | some i => rw [Option.toList_some, List.countP_singleton, Option.any_some]

/-- The report of SEGMENT-STATUS, in the words of the statements (R133, R177). -/
theorem engine_statusResult_eq (e : Engine) :
    e.statusResult
      = [engineByte e.state,
          if e.state = .resetting then (if e.returnState = .online then 0x01 else 0x00) else 0xFF,
          if e.inFlight = none then 0x00 else 0x01,
          byteOf ((postedItems e.queue).length + if e.inFlight.any Item.isPosted then 1 else 0),
          byteOf e.queue.length, byteOf e.noResponses, causeByte e.faultCause] := by
  have returnState : e.returnState.code = if e.returnState = .online then 0x01 else 0x00 := by
    cases e.returnState <;> rfl
  have activity : (if e.busy then 1 else 0 : Byte) = if e.inFlight = none then 0x00 else 0x01 := by
    unfold Engine.busy
    cases e.inFlight <;> rfl
  rw [Engine.statusResult, Engine.returnStateByte, returnState, activity, postedCount_eq, engineByte_eq_code, causeByte_eq_code]
  rfl

theorem segmentStatusCommand_reports (s : State) (n : SegmentNumber) :
    segmentStatusCommand [byteOf n.val] s = .ok (s, s.engines[n].statusResult) := by
  simp only [segmentStatusCommand, parseSegment_byteOf]

/-! ### The notice commands -/

theorem resumeNoticesCommand_eq (s : State) :
    resumeNoticesCommand [] s
      = if s.notices.delivery = .stalled then .ok (s.setNotices { s.notices with attempts := 0, delivery := .idle }, [0x01])
        else .error .wrongState := rfl

theorem noticeStatusCommand_reports (s : State) : noticeStatusCommand [] s = .ok (s, s.notices.statusResult) := rfl

/-- Two flags in the bits 0 and 1 are the number that the bits spell. -/
theorem twoFlags_eq (a b : Bool) :
    flagBit 0 a ||| flagBit 1 b = byteOf ((if a then 1 else 0) + if b then 2 else 0) := by
  revert a b; decide

/-- The report of NOTICE-STATUS, in the words of the statements (R151, R177). -/
theorem noticeUnit_statusResult_eq (u : NoticeUnit) :
    u.statusResult
      = [deliveryByte u.delivery, byteOf u.queue.length, (u.queue.head?.bind Notice.sequence).getD 0x00,
          byteOf ((if (u.queue.head?.bind Notice.sequence).isSome then 1 else 0) + (if u.overrun then 2 else 0)),
          byteOf u.attempts] := by
  have sequenced : (u.queue.head?.any fun x => x.sequence.isSome) = (u.queue.head?.bind Notice.sequence).isSome := by
    cases u.queue.head? <;> rfl
  rw [NoticeUnit.statusResult, NoticeUnit.flags, sequenced, twoFlags_eq, deliveryByte_eq_code]
  rfl

/-- Settles O46: RESUME-NOTICES by the delivery state, and the two reports byte by byte. -/
theorem noticeCommandsAndSegmentStatus : Obligations.NoticeCommandsAndSegmentStatus := by
  intro s r member
  refine ⟨fun stalled => ?_, fun other => ?_, ?_, fun n => ?_⟩
  · exact resumeNotices_runs.done member (by simp) ((resumeNoticesCommand_eq s).trans (if_pos stalled))
  · exact resumeNotices_runs.refused member (by simp) ((resumeNoticesCommand_eq s).trans (if_neg other))
  · rintro head rfl
    rw [noticeStatus_runs.done member (by simp) (noticeStatusCommand_reports s), noticeUnit_statusResult_eq]
  · rw [segmentStatus_runs.done member (segmentBlock_short n) (segmentStatusCommand_reports s n), engine_statusResult_eq]

end Sys2Proof.Proofs.EngineCommands

/-! SUPPORT. The Notice Unit (R138–R145, R150): where a raise goes, what the merge makes of the queue, and what an acknowledgement and a
write of NOTICE-TARGET leave. -/

namespace Sys2Proof.Proofs.Notices

open Sys2Proof Sys2Proof.Machine Sys2Proof.Safety

/-! ### The first notice of a kind and subject -/

theorem fresh_or_first (key : NoticeKind × Nat) (l : List Notice) :
    (∀ y ∈ l, y.news.key ≠ key)
      ∨ ∃ before x after, l = before ++ x :: after ∧ (∀ y ∈ before, y.news.key ≠ key) ∧ x.news.key = key := by
  cases found : l.find? fun y => y.news.key = key with
  | none => exact .inl (by simpa using found)
  | some x =>
    obtain ⟨here, before, after, split, fresh⟩ := List.find?_eq_some_iff_append.1 found
    exact .inr ⟨before, x, after, split, by simpa using fresh, by simpa using here⟩

/-- `mergeHead` is the merge of R141, for every queue. -/
theorem mergesTo_mergeHead (q : List Notice) : MergesTo q (mergeHead q) := by
  suffices ∃ q', MergesTo q q' by
    obtain ⟨q', merge⟩ := this
    rwa [mergeHead_of_mergesTo q q' merge]
  cases q with
  | nil => exact ⟨[], .inl ⟨rfl, rfl⟩⟩
  | cons x rest =>
    rcases fresh_or_first x.news.key rest with fresh | ⟨pre, y, post, rfl, fresh, same⟩
    · exact ⟨_, .inr (.inl ⟨x, rest, rfl, fresh, rfl⟩)⟩
    · exact ⟨_, .inr (.inr ⟨x, pre, y, post, rfl, fresh, same, rfl⟩)⟩

/-! ### Raises -/

/-- A raise coalesces into the first notice of its kind and subject that is not in flight (R139). -/
theorem raise_repeats {u : NoticeUnit} {news : News} (n : Nat) {before after : List Notice} {x : Notice}
    (queue : u.queue = before ++ x :: after) (landed : u.flying ≤ before.length)
    (fresh : ∀ y ∈ before.drop u.flying, y.news.key ≠ news.key) (same : x.news.key = news.key) :
    u.raise news n = { u with queue := before ++ x.repeated n :: after } := by
  have folded : coalesce news.key n (u.queue.drop u.flying) = some (before.drop u.flying ++ x.repeated n :: after) := by
    rw [queue, List.drop_append_of_le_length landed]
    exact coalesce_first _ n _ after x fresh same
  rw [raise_coalesces u news n _ folded, queue, List.take_append_of_le_length landed, ← List.append_assoc, List.take_append_drop]

/-- What can become of a raise: coalesced into a notice that is not in flight, appended, or lost to overrun (R139, R140). -/
theorem raise_cases (u : NoticeUnit) (news : News) (n : Nat) :
    (∃ before x after, u.queue = before ++ x :: after ∧ u.raise news n = { u with queue := before ++ x.repeated n :: after })
      ∨ ((∀ y ∈ u.queue.drop u.flying, y.news.key ≠ news.key) ∧ u.queue.length < 16
        ∧ u.raise news n = { u with queue := u.queue ++ [⟨news, min 255 n, none⟩] })
      ∨ u.raise news n = { u with overrun := true } := by
  rcases fresh_or_first news.key (u.queue.drop u.flying) with fresh | ⟨before, x, after, split, fresh, same⟩
  · have none_there := (coalesce_none news.key n _).2 fresh
    by_cases room : u.queue.length < 16
    · exact .inr (.inl ⟨fresh, room, raise_appends u news n none_there room⟩)
    · exact .inr (.inr (raise_overruns u news n none_there (Nat.not_lt.1 room)))
  · have folded := coalesce_first news.key n before after x fresh same
    rw [← split] at folded
    refine .inl ⟨u.queue.take u.flying ++ before, x, after, ?_, ?_⟩
    · rw [List.append_assoc, ← split, List.take_append_drop]
    · rw [List.append_assoc]; exact raise_coalesces u news n _ folded

/-- Settles O41, by whether a notice of the kind and subject waits, and by the room of the queue. -/
theorem raisesCoalesceAppendOrOverrun : Obligations.RaisesCoalesceAppendOrOverrun := by
  intro u news n _ few
  refine ⟨fun before after x queue landed fresh same => raise_repeats n queue landed fresh same, fun fresh => ?_⟩
  have none_there := (coalesce_none news.key n _).2 fresh
  refine ⟨fun room => ?_, fun full => raise_overruns u news n none_there full⟩
  rw [raise_appends u news n none_there room, Nat.min_eq_right (by omega : n ≤ 255)]

/-! ### Acknowledgements -/

theorem accepts_iff (u : NoticeUnit) (q : Byte) :
    u.accepts q = true ↔ u.delivery = .awaitAck ∧ ∃ x ∈ u.queue.head?, x.sequence = some q := by
  simp [NoticeUnit.accepts, Option.any_eq_true]

theorem exec_noticeAck (s : State) (r : Requester) (q : Byte) (running : Running s) :
    exec (.noticeAck (header r 1) [q]) s
      = .next ((s.acknowledgeNotice r q).1.answer r (s.acknowledgeNotice r q).2) :=
  congrArg _ (atPort_running _ _ _ _ r running.1 (sender_header r 1) running.2 (headerOk_header r 1 (by decide)))

theorem acknowledgeNotice_denied (s : State) (r : Requester) (q : Byte) (other : s.settings.noticeTarget ≠ some r) :
    s.acknowledgeNotice r q = (s, .fault .notPermitted) := if_neg other

theorem acknowledgeNotice_taken (s : State) (r : Requester) (q : Byte) (target : s.settings.noticeTarget = some r)
    (late : ¬ s.notices.accepts q = true) : s.acknowledgeNotice r q = (s, .taken) :=
  (if_pos target).trans (if_neg late)

theorem acknowledgeNotice_accepted (s : State) (r : Requester) (q : Byte) (target : s.settings.noticeTarget = some r)
    (accepted : s.notices.accepts q = true) : s.acknowledgeNotice r q = (s.setNotices s.notices.acknowledged, .taken) :=
  (if_pos target).trans (if_pos accepted)

/-- Settles O43, by who acknowledges and whether the head in flight has the sequence. -/
theorem acknowledgementsOfNotices : Obligations.AcknowledgementsOfNotices := by
  intro s r q running
  rw [exec_noticeAck s r q running]
  refine ⟨fun other => by rw [acknowledgeNotice_denied s r q other], fun target => ⟨fun late => ?_, fun x rest awaits queue own => ?_⟩⟩
  · have unaccepted : ¬ s.notices.accepts q = true := by
      intro accepted
      obtain ⟨awaits, x, head, own⟩ := (accepts_iff s.notices q).1 accepted
      exact late.elim (absurd awaits) fun foreign => foreign x head own
    rw [acknowledgeNotice_taken s r q target unaccepted]
  · have accepted := (accepts_iff s.notices q).2 ⟨awaits, x, by rw [queue]; rfl, own⟩
    rw [acknowledgeNotice_accepted s r q target accepted, NoticeUnit.acknowledged, queue]
    rfl

/-! ### Writes of NOTICE-TARGET -/

/-- The table of R150, by the delivery state that the write finds and the target that it names. -/
theorem retargeted_eq (u : NoticeUnit) (target : Option Requester) :
    u.retargeted target
      = match u.delivery, target with
        | .disabled, none => u
        | .disabled, some _ => { u with delivery := .idle, attempts := 0 }
        | .idle, none => { u with delivery := .disabled, attempts := 0 }
        | .stalled, none => { u with delivery := .disabled, attempts := 0 }
        | .idle, some _ => { u with delivery := .idle, attempts := 0 }
        | .stalled, some _ => { u with delivery := .idle, attempts := 0 }
        | .awaitAck, none => { u with queue := mergeHead u.queue, ackTimer := none, delivery := .disabled, attempts := 0 }
        | .awaitAck, some _ => { u with queue := mergeHead u.queue, ackTimer := none, delivery := .idle, attempts := 0 } := by
  obtain ⟨queue, delivery, next, attempts, timer, overrun, carried⟩ := u
  cases delivery <;> cases target <;> rfl

/-- The block of a write of NOTICE-TARGET sets the target and acts on delivery (R150, R164, R178). -/
theorem writeSettingCommand_noticeTarget (s : State) (target : Option Requester) :
    writeSettingCommand ([0x07, 0x00] ++ fieldOf 4 ((target.map Fin.val).getD 0xFFFFFFFF)) s
      = .ok (({ s with settings := { s.settings with noticeTarget := target } } : State).setNotices (s.notices.retargeted target),
          [0x07, 0x00] ++ fieldOf 4 ((s.settings.noticeTarget.map Fin.val).getD 0xFFFFFFFF)
            ++ fieldOf 4 ((target.map Fin.val).getD 0xFFFFFFFF)) := by
  have written : s.settings.write .noticeTarget ((target.map Fin.val).getD 0xFFFFFFFF)
      = some { s.settings with noticeTarget := target } := by
    simp only [Settings.write, ofOptionValue_requester]; rfl
  have value (v : Settings) : v.value .noticeTarget = (v.noticeTarget.map Fin.val).getD 0xFFFFFFFF := optionValue_requester _
  have name : SettingName.ofCode 0x07 0x00 = some .noticeTarget := rfl
  have unheld : s.widthHeld .noticeTarget = false := rfl
  have fits := optionValue_fits target
  generalize encoding : (target.map Fin.val).getD 0xFFFFFFFF = encoded at written fits ⊢
  have length : ([0x07, 0x00] ++ fieldOf 4 encoded).length = 6 := by simp
  have code : byteAt ([0x07, 0x00] ++ fieldOf 4 encoded) 0 = 0x07 := rfl
  have segment : byteAt ([0x07, 0x00] ++ fieldOf 4 encoded) 1 = 0x00 := rfl
  have field : fieldAt ([0x07, 0x00] ++ fieldOf 4 encoded) 2 4 = encoded := numberOf_fieldOf 4 encoded fits
  simp only [writeSettingCommand, if_pos length, code, segment, field, name, written, unheld, value]
  rw [encoding]
  rfl

/-- Settles O45: the row of R150's table that the statement names is the one that `retargeted_eq` gives. -/
theorem noticeTargetWrites : Obligations.NoticeTargetWrites := by
  intro s r target merged u member merge table
  have retargeted : s.notices.retargeted target = u := by
    rw [retargeted_eq, mergeHead_of_mergesTo _ _ merge]
    rcases table with ⟨state, rfl, rfl⟩ | ⟨state, named, rfl⟩ | ⟨state | state, rfl, rfl⟩ | ⟨state | state, named, rfl⟩
      | ⟨state, rfl, rfl⟩ | ⟨state, named, rfl⟩
    all_goals rw [state]
    -- The rows that are left name a requester.
    all_goals
      obtain ⟨t, rfl⟩ := Option.ne_none_iff_exists'.1 named
      rfl
  subst retargeted
  have short : (0x07 :: 0x00 :: fieldOf 4 ((target.map Fin.val).getD 0xFFFFFFFF)).length ≤ 24 := by simp
  exact congrArg _ (manage_member_ok s _ r _ _ _ member short (writeSettingCommand_noticeTarget s target))

end Sys2Proof.Proofs.Notices

/-! SUPPORT. The Notice Unit by its delivery state (R138, R142, R145, R184): the invariant as a condition on the queue and one on the state,
and each of them through a raise, a send, an acknowledgement, the merge and the changes of state. -/

namespace Sys2Proof.Proofs.NoticeStates

open Sys2Proof Sys2Proof.Machine Sys2Proof.Safety Sys2Proof.Proofs.Notices

/-! ### The invariant, by queue and state -/

/-- The sequence of the head; `none` where there is no head or it has not been sent (R143). -/
def headSequence (q : List Notice) : Option Byte := q.head?.bind Notice.sequence

/-- The queue of a Notice Unit with so many notices in flight and this next sequence (R138, R139, R143). -/
structure QueueOk (q : List Notice) (flying : Nat) (next : Byte) : Prop where
  room : q.length ≤ 16
  repeats : ∀ x ∈ q, 1 ≤ x.repeats ∧ x.repeats ≤ 255
  distinct : ((q.drop flying).map fun x => x.news.key).Nodup
  onlyHead : ∀ x ∈ q.drop 1, x.sequence = none
  sequence : ∀ b ∈ headSequence q, next = b + 1

/-- What each delivery state says of the target, the ack timer, the attempts and the head (R142, R145, R150). -/
def DeliveryOk (u : NoticeUnit) (target : Option Requester) : Prop :=
  match u.delivery with
  | .disabled => target = none ∧ u.ackTimer = none ∧ u.attempts = 0
  | .idle => target ≠ none ∧ u.ackTimer = none ∧ u.attempts ≤ 2
  | .awaitAck => target ≠ none ∧ u.ackTimer ≠ none ∧ (1 ≤ u.attempts ∧ u.attempts ≤ 3) ∧ (headSequence u.queue).isSome = true
  | .stalled => target ≠ none ∧ u.ackTimer = none ∧ u.attempts = 3 ∧ (headSequence u.queue).isSome = true

theorem headSequence_isSome_iff (q : List Notice) :
    (headSequence q).isSome = true ↔ ∃ x ∈ q.head?, x.sequence.isSome = true := by
  cases q <;> simp [headSequence]

theorem mem_headSequence_iff (q : List Notice) (b : Byte) : b ∈ headSequence q ↔ ∃ x ∈ q.head?, b ∈ x.sequence := by
  cases q <;> simp [headSequence]

theorem queueOk_of_noticesOk {u : NoticeUnit} {target : Option Requester} (ok : NoticesOk u target) :
    QueueOk u.queue u.flying u.nextSequence where
  room := ok.room
  repeats := ok.repeats
  distinct := ok.distinct
  onlyHead := ok.onlyHead
  sequence b mem := by
    obtain ⟨x, head, own⟩ := (mem_headSequence_iff _ _).1 mem
    exact ok.sequence x head b own

theorem deliveryOk_of_noticesOk {u : NoticeUnit} {target : Option Requester} (ok : NoticesOk u target) : DeliveryOk u target := by
  have disabled := ok.disabled
  have timer := ok.timer
  have head := ok.head
  rw [← headSequence_isSome_iff] at head
  unfold DeliveryOk
  cases state : u.delivery <;> simp only [state] at disabled timer head ⊢
  case disabled => exact ⟨by simpa using disabled, by simpa using timer, ok.disabledAttempts state⟩
  case idle => exact ⟨by simpa using disabled, by simpa using timer, ok.idleAttempts state⟩
  case awaitAck =>
    exact ⟨by simpa using disabled, by simpa [Option.isSome_iff_ne_none] using timer, ok.awaitAttempts state, by simpa using head⟩
  case stalled => exact ⟨by simpa using disabled, by simpa using timer, ok.stalledAttempts state, by simpa using head⟩

theorem noticesOk_of_parts {u : NoticeUnit} {target : Option Requester} (queue : QueueOk u.queue u.flying u.nextSequence)
    (delivery : DeliveryOk u target) : NoticesOk u target where
  room := queue.room
  repeats := queue.repeats
  distinct := queue.distinct
  onlyHead := queue.onlyHead
  sequence x head b own := queue.sequence b ((mem_headSequence_iff _ _).2 ⟨x, head, own⟩)
  disabled := by unfold DeliveryOk at delivery; split at delivery <;> simp_all
  timer := by unfold DeliveryOk at delivery; split at delivery <;> simp_all [Option.isSome_iff_ne_none]
  head := by
    rw [← headSequence_isSome_iff]
    unfold DeliveryOk at delivery; split at delivery <;> simp_all
  idleAttempts state := by simp only [DeliveryOk, state] at delivery; exact delivery.2.2
  awaitAttempts state := by simp only [DeliveryOk, state] at delivery; exact delivery.2.2.1
  stalledAttempts state := by simp only [DeliveryOk, state] at delivery; exact delivery.2.2.1
  disabledAttempts state := by simp only [DeliveryOk, state] at delivery; exact delivery.2.2

/-! ### The queue -/

theorem headSequence_repeated (before after : List Notice) (x : Notice) (n : Nat) :
    headSequence (before ++ x.repeated n :: after) = headSequence (before ++ x :: after) := by
  cases before <;> rfl

theorem headSequence_append_fresh (q : List Notice) (news : News) (n : Nat) :
    headSequence (q ++ [⟨news, n, none⟩]) = headSequence q := by
  cases q <;> rfl

theorem repeats_repeated {x : Notice} (n : Nat) (ok : 1 ≤ x.repeats ∧ x.repeats ≤ 255) :
    1 ≤ (x.repeated n).repeats ∧ (x.repeated n).repeats ≤ 255 := by
  simp only [Notice.repeated, Config.repeatLimit]; omega

section
variable {q : List Notice} {k : Nat} {next : Byte}

/-- A notice of the queue repeated: its kind, subject, sequence and place stay (R139). -/
theorem QueueOk.repeated {before after : List Notice} {x : Notice} (ok : QueueOk (before ++ x :: after) k next) (n : Nat) :
    QueueOk (before ++ x.repeated n :: after) k next where
  room := by simpa using ok.room
  repeats y mem := by
    rcases List.mem_append.1 mem with early | late
    · exact ok.repeats y (by simp [early])
    · rcases List.mem_cons.1 late with rfl | late
      · exact repeats_repeated n (ok.repeats x (by simp))
      · exact ok.repeats y (by simp [late])
  distinct := by simpa [List.map_drop, Notice.repeated] using ok.distinct
  onlyHead := by
    have only := ok.onlyHead
    cases before with
    | nil => exact only
    | cons b bs => simpa [or_imp, forall_and, Notice.repeated] using only
  sequence b mem := ok.sequence b (headSequence_repeated before after x n ▸ mem)

/-- A notice appended whose kind and subject no waiting notice has (R139, R140). -/
theorem QueueOk.appended (ok : QueueOk q k next) {news : News} {n : Nat} (pos : 1 ≤ n) (room : q.length < 16)
    (fresh : ∀ y ∈ q.drop k, y.news.key ≠ news.key) : QueueOk (q ++ [⟨news, min 255 n, none⟩]) k next where
  room := by simpa using room
  repeats y mem := by
    rcases List.mem_append.1 mem with early | late
    · exact ok.repeats y early
    · rw [List.mem_singleton.1 late]; dsimp only; omega
  distinct := by
    have keys : ((q.drop k ++ [(⟨news, min 255 n, none⟩ : Notice)]).map fun x => x.news.key).Nodup := by
      rw [List.map_append, List.nodup_append']
      refine ⟨ok.distinct, List.nodup_singleton _, List.disjoint_singleton.2 fun waits => ?_⟩
      obtain ⟨y, waits, same⟩ := List.mem_map.1 waits
      exact fresh y waits same
    rw [List.drop_append]
    exact keys.sublist (((List.drop_sublist _ _).append_left _).map _)
  onlyHead y mem := by
    rw [List.drop_append] at mem
    rcases List.mem_append.1 mem with early | late
    · exact ok.onlyHead y early
    · rw [List.mem_singleton.1 (List.mem_of_mem_drop late)]
  sequence b mem := ok.sequence b (headSequence_append_fresh q news _ ▸ mem)

/-- The head leaves flight without being removed (R141): the merge keeps the waiting notices distinct with the head among them. -/
theorem QueueOk.merged (ok : QueueOk q 1 next) {q' : List Notice} (merge : MergesTo q q') : QueueOk q' 0 next := by
  rcases merge with ⟨rfl, rfl⟩ | ⟨x, rest, rfl, fresh, rfl⟩ | ⟨x, pre, y, post, rfl, fresh, same, rfl⟩
  · exact { ok with }
  · exact { ok with distinct := List.nodup_cons.2 ⟨by simpa using fresh, ok.distinct⟩ }
  · have others : (pre ++ post).Sublist (pre ++ y :: post) := (List.sublist_cons_self y post).append_left pre
    refine ⟨?_, fun z mem => ?_, ?_, fun z mem => ok.onlyHead z (others.subset mem), ok.sequence⟩
    · exact (Nat.succ_le_succ others.length_le).trans ok.room
    · rcases List.mem_cons.1 mem with rfl | late
      · exact repeats_repeated y.repeats (ok.repeats x (by simp))
      · exact ok.repeats z (List.mem_cons_of_mem x (others.subset late))
    · have keys : ((y :: (pre ++ post)).map fun z => z.news.key).Nodup :=
        (List.perm_middle.map _).nodup_iff.1 ok.distinct
      rwa [List.map_cons, same] at keys

/-- The head is sent (R143): it is in flight with a sequence, and next sequence follows it. -/
theorem QueueOk.sent {x : Notice} {rest : List Notice} (ok : QueueOk (x :: rest) 0 next) (b : Byte) :
    QueueOk ({ x with sequence := some b } :: rest) 1 (b + 1) where
  room := ok.room
  repeats y mem := by
    rcases List.mem_cons.1 mem with rfl | late
    · exact ok.repeats x (by simp)
    · exact ok.repeats y (by simp [late])
  distinct := (List.nodup_cons.1 ok.distinct).2
  onlyHead := ok.onlyHead
  sequence c mem := by cases mem; rfl

/-- The head in flight is removed (R144): none that waits has been sent. -/
theorem QueueOk.removed (ok : QueueOk q 1 next) : QueueOk (q.drop 1) 0 next where
  room := (List.drop_sublist 1 q).length_le.trans ok.room
  repeats y mem := ok.repeats y (List.mem_of_mem_drop mem)
  distinct := ok.distinct
  onlyHead y mem := ok.onlyHead y (List.mem_of_mem_drop mem)
  sequence b mem := by
    obtain ⟨x, head, own⟩ := (mem_headSequence_iff _ b).1 mem
    rw [ok.onlyHead x (List.mem_of_mem_head? head)] at own
    cases own

end

theorem headSequence_mergeHead (q : List Notice) : headSequence (mergeHead q) = headSequence q := by
  unfold mergeHead
  split
  · rfl
  · split <;> rfl

/-! ### What can become of a Notice Unit -/

/-- A Notice Unit comes from another by raises of one occurrence or more (R137). -/
inductive Raised (u : NoticeUnit) : NoticeUnit → Prop
  | nothing : Raised u u
  | raise {v : NoticeUnit} (before : Raised u v) (news : News) (n : Nat) (pos : 1 ≤ n) : Raised u (v.raise news n)

theorem Raised.trans {u v w : NoticeUnit} (first : Raised u v) (second : Raised v w) : Raised u w := by
  induction second with
  | nothing => exact first
  | raise _ news n pos before => exact before.raise news n pos

/-- What one step can do to the Notice Unit and its target. -/
inductive UnitMove (u : NoticeUnit) (target : Option Requester) : NoticeUnit → Option Requester → Prop
  | raises {v : NoticeUnit} (raised : Raised u v) : UnitMove u target v target
  | sends (head : Notice) (rest : List Notice) (timeout : Nat) (named : target ≠ none) (idle : u.delivery = .idle)
      (queue : u.queue = head :: rest) : UnitMove u target (u.sent head rest timeout) target
  | acknowledged (awaits : u.delivery = .awaitAck) : UnitMove u target u.acknowledged target
  | expires (runs : u.ackTimer ≠ none) : UnitMove u target u.expired target
  | resumes (stalled : u.delivery = .stalled) : UnitMove u target { u with attempts := 0, delivery := .idle } target
  | retargets (named : Option Requester) : UnitMove u target (u.retargeted named) named
  | resets : UnitMove u target .cold none
  | ticks : UnitMove u target u.tick target

/-! ### The invariant through each of them -/

section
variable {u : NoticeUnit} {target : Option Requester}

/-- The notices of the queue change and not its head's sequence: the delivery state says as much of the unit as before. -/
theorem noticesOk_of_queue {q : List Notice} (ok : NoticesOk u target) (queue : QueueOk q u.flying u.nextSequence)
    (same : headSequence q = headSequence u.queue) : NoticesOk { u with queue := q } target := by
  refine noticesOk_of_parts queue ?_
  have delivery := deliveryOk_of_noticesOk ok
  unfold DeliveryOk at delivery ⊢
  rwa [← same] at delivery

theorem noticesOk_raise (ok : NoticesOk u target) (news : News) (n : Nat) (pos : 1 ≤ n) : NoticesOk (u.raise news n) target := by
  have queue := queueOk_of_noticesOk ok
  have delivery := deliveryOk_of_noticesOk ok
  rcases raise_cases u news n with ⟨before, x, after, split, coalesced⟩ | ⟨fresh, room, appended⟩ | overrun
  · rw [coalesced]
    rw [split] at queue
    exact noticesOk_of_queue ok (queue.repeated n) (by rw [split, headSequence_repeated])
  · rw [appended]
    exact noticesOk_of_queue ok (queue.appended pos room fresh) (headSequence_append_fresh _ _ _)
  · rw [overrun]; exact noticesOk_of_parts queue delivery

theorem noticesOk_raised (ok : NoticesOk u target) {v : NoticeUnit} (raised : Raised u v) : NoticesOk v target := by
  induction raised with
  | nothing => exact ok
  | raise _ news n pos before => exact noticesOk_raise before news n pos

/-- The sequence of a send is the one before next sequence as it then is (R143, step 1). -/
theorem sendSequence_next {head : Notice} {rest : List Notice} (queue : QueueOk (head :: rest) 0 u.nextSequence) :
    (if head.sequence.isSome then u.nextSequence else u.nextSequence + 1) = u.sendSequence head + 1 := by
  cases own : head.sequence with
  | none => simp [NoticeUnit.sendSequence, own]
  | some b => simpa [NoticeUnit.sendSequence, own] using queue.sequence b own

theorem noticesOk_sent (ok : NoticesOk u target) {head : Notice} {rest : List Notice} (timeout : Nat) (named : target ≠ none)
    (idle : u.delivery = .idle) (split : u.queue = head :: rest) : NoticesOk (u.sent head rest timeout) target := by
  have queue := queueOk_of_noticesOk ok
  rw [NoticeUnit.flying, if_neg (by rw [idle]; decide), split] at queue
  have attempts := ok.idleAttempts idle
  have sent := queue.sent (u.sendSequence head)
  rw [← sendSequence_next queue] at sent
  exact noticesOk_of_parts sent ⟨named, Option.some_ne_none _, by dsimp only [NoticeUnit.sent]; omega, rfl⟩

theorem queueOk_awaiting (ok : NoticesOk u target) (awaits : u.delivery = .awaitAck) : QueueOk u.queue 1 u.nextSequence := by
  have queue := queueOk_of_noticesOk ok
  rwa [NoticeUnit.flying, if_pos awaits] at queue

theorem queueOk_landed (ok : NoticesOk u target) (lands : u.delivery ≠ .awaitAck) : QueueOk u.queue 0 u.nextSequence := by
  have queue := queueOk_of_noticesOk ok
  rwa [NoticeUnit.flying, if_neg lands] at queue

theorem named_of_delivery (ok : NoticesOk u target) (enabled : u.delivery ≠ .disabled) : target ≠ none :=
  fun unnamed => enabled (ok.disabled.2 unnamed)

theorem noticesOk_acknowledged (ok : NoticesOk u target) (awaits : u.delivery = .awaitAck) : NoticesOk u.acknowledged target :=
  noticesOk_of_parts (queueOk_awaiting ok awaits).removed
    ⟨named_of_delivery ok (by rw [awaits]; decide), rfl, Nat.zero_le 2⟩

/-- The head of a unit that awaits leaves flight: sent, it heads the merged queue (R141). -/
theorem queueOk_mergeHead (ok : NoticesOk u target) (awaits : u.delivery = .awaitAck) :
    QueueOk (mergeHead u.queue) 0 u.nextSequence :=
  (queueOk_awaiting ok awaits).merged (mergesTo_mergeHead u.queue)

theorem noticesOk_expired (ok : NoticesOk u target) (runs : u.ackTimer ≠ none) : NoticesOk u.expired target := by
  have awaits : u.delivery = .awaitAck := ok.timer.1 (Option.isSome_iff_ne_none.2 runs)
  have queue := queueOk_mergeHead ok awaits
  have named := named_of_delivery ok (by rw [awaits]; decide)
  have attempts := (ok.awaitAttempts awaits).2
  have sequenced := (headSequence_isSome_iff _).2 (ok.head (.inl awaits))
  unfold NoticeUnit.expired
  by_cases again : u.attempts < Config.attemptLimit
  · rw [if_pos again]
    exact noticesOk_of_parts queue ⟨named, rfl, Nat.le_of_lt_succ again⟩
  · rw [if_neg again]
    rw [← headSequence_mergeHead] at sequenced
    exact noticesOk_of_parts queue ⟨named, rfl, le_antisymm attempts (Nat.not_lt.1 again), sequenced⟩

theorem stopped_of_landed (ok : NoticesOk u target) (lands : u.delivery ≠ .awaitAck) : u.ackTimer = none :=
  Option.not_isSome_iff_eq_none.1 fun runs => lands (ok.timer.1 runs)

/-- A unit out of AWAIT-ACK takes delivery up again, with no attempts made (R149, R150). -/
theorem noticesOk_idle (ok : NoticesOk u target) (lands : u.delivery ≠ .awaitAck) {named : Option Requester} (enabled : named ≠ none) :
    NoticesOk { u with delivery := .idle, attempts := 0 } named := by
  have queue := queueOk_landed ok lands
  have stopped := stopped_of_landed ok lands
  exact noticesOk_of_parts queue ⟨enabled, stopped, Nat.zero_le 2⟩

/-- A unit out of AWAIT-ACK loses its target (R150). -/
theorem noticesOk_disabled (ok : NoticesOk u target) (lands : u.delivery ≠ .awaitAck) :
    NoticesOk { u with delivery := .disabled, attempts := 0 } none := by
  have queue := queueOk_landed ok lands
  have stopped := stopped_of_landed ok lands
  exact noticesOk_of_parts queue ⟨rfl, stopped, rfl⟩

theorem noticesOk_retargeted (ok : NoticesOk u target) (named : Option Requester) : NoticesOk (u.retargeted named) named := by
  rw [retargeted_eq]
  split
  next state =>
    have unnamed := ok.disabled.1 state
    rwa [unnamed] at ok
  next state => exact noticesOk_idle ok (by rw [state]; decide) (Option.some_ne_none _)
  next state => exact noticesOk_disabled ok (by rw [state]; decide)
  next state => exact noticesOk_disabled ok (by rw [state]; decide)
  next state => exact noticesOk_idle ok (by rw [state]; decide) (Option.some_ne_none _)
  next state => exact noticesOk_idle ok (by rw [state]; decide) (Option.some_ne_none _)
  next state => exact noticesOk_of_parts (queueOk_mergeHead ok state) ⟨rfl, rfl, rfl⟩
  next state => exact noticesOk_of_parts (queueOk_mergeHead ok state) ⟨Option.some_ne_none _, rfl, Nat.zero_le 2⟩

theorem noticesOk_tick (ok : NoticesOk u target) : NoticesOk u.tick target :=
  { ok with timer := by rw [NoticeUnit.tick, Option.isSome_map]; exact ok.timer }

theorem noticesOk_of_unitMove {v : NoticeUnit} {after : Option Requester} (ok : NoticesOk u target) (move : UnitMove u target v after) :
    NoticesOk v after := by
  cases move with
  | raises raised => exact noticesOk_raised ok raised
  | sends head rest timeout named idle queue => exact noticesOk_sent ok timeout named idle queue
  | acknowledged awaits => exact noticesOk_acknowledged ok awaits
  | expires runs => exact noticesOk_expired ok runs
  | resumes stalled =>
    exact noticesOk_idle ok (by rw [stalled]; decide) (named_of_delivery ok (by rw [stalled]; decide))
  | retargets => exact noticesOk_retargeted ok after
  | resets => exact Tables.noticesOk_cold
  | ticks => exact noticesOk_tick ok

end

end Sys2Proof.Proofs.NoticeStates

/-! SUPPORT. The Notice Unit through every step (R137–R145, R150, R152, R153): what each command can do to it, said once. All that the other
blocks do to it is to raise notices. -/

namespace Sys2Proof.Proofs.NoticeMoves

open Sys2Proof Sys2Proof.Machine Sys2Proof.Safety Sys2Proof.Proofs.Scope Sys2Proof.Proofs.Effects Sys2Proof.Proofs.Engines
open Sys2Proof.Proofs.Notices Sys2Proof.Proofs.NoticeStates

/-! ### Operations that only raise notices -/

/-- A state comes from another with no more than raises at the Notice Unit, and with the same target. -/
structure OnlyRaises (s t : State) : Prop where
  notices : Raised s.notices t.notices
  target : t.settings.noticeTarget = s.settings.noticeTarget

theorem OnlyRaises.trans {s t u : State} (first : OnlyRaises s t) (second : OnlyRaises t u) : OnlyRaises s u :=
  ⟨first.notices.trans second.notices, second.target.trans first.target⟩

theorem onlyRaises_of_same {s t : State} (notices : t.notices = s.notices) (settings : t.settings = s.settings) : OnlyRaises s t :=
  ⟨notices ▸ .nothing, by rw [settings]⟩

theorem OnlyRaises.refl (s : State) : OnlyRaises s s := onlyRaises_of_same rfl rfl

theorem onlyRaises_foldl {α : Type} (f : State → α → State) (each : ∀ s x, OnlyRaises s (f s x)) (l : List α) (s : State) :
    OnlyRaises s (l.foldl f s) := by
  induction l generalizing s with
  | nil => exact .refl s
  | cons x xs ih => exact (each s x).trans (ih (f s x))

theorem onlyRaises_raise (s : State) (news : News) (n : Nat) (pos : 1 ≤ n) : OnlyRaises s (s.raise news n) :=
  ⟨Raised.nothing.raise news n pos, rfl⟩

theorem onlyRaises_setWindow (s : State) (w : WindowNumber) (r : Window) : OnlyRaises s (s.setWindow w r) :=
  onlyRaises_of_same rfl rfl

theorem onlyRaises_setEntry (s : State) (slot : Slot) (e : Entry) : OnlyRaises s (s.setEntry slot e) := onlyRaises_of_same rfl rfl

theorem onlyRaises_setEngine (s : State) (n : SegmentNumber) (e : Engine) : OnlyRaises s (s.setEngine n e) :=
  onlyRaises_of_same rfl rfl

/-! ### The fall of a window's count -/

theorem onlyRaises_settle (s : State) (w : WindowNumber) : OnlyRaises s (s.settle w) := by
  unfold State.settle State.retire
  split
  · exact (onlyRaises_setWindow s w _).trans (onlyRaises_raise _ _ 1 le_rfl)
  · exact .refl s

theorem onlyRaises_lower (s : State) (w : WindowNumber) (n : Nat) : OnlyRaises s (s.lower w n) :=
  (onlyRaises_setWindow s w _).trans (onlyRaises_settle _ w)

theorem onlyRaises_lowerRoute (s : State) (r : Route) : OnlyRaises s (s.lowerRoute r) := by
  unfold State.lowerRoute
  split
  · exact .refl s
  · split
    · exact onlyRaises_lower s _ 1
    · exact .refl s

theorem onlyRaises_lowerRoutes (s : State) (routes : List Route) : OnlyRaises s (s.lowerRoutes routes) := by
  refine onlyRaises_foldl _ (fun t w => ?_) _ s
  split
  · exact onlyRaises_lower t w _
  · exact .refl t

theorem onlyRaises_raiseRoute (s : State) (r : Route) : OnlyRaises s (s.raiseRoute r) := by
  unfold State.raiseRoute
  split
  · exact .refl s
  · split
    · exact onlyRaises_setWindow s _ _
    · exact .refl s

/-! ### Asks -/

theorem onlyRaises_endEntry (s : State) (slot : Slot) : OnlyRaises s (s.endEntry slot) :=
  (onlyRaises_setEntry s slot _).trans (onlyRaises_lowerRoute _ _)

theorem onlyRaises_enqueue (s : State) (n : SegmentNumber) (i : Item) : OnlyRaises s (s.enqueue n i) := onlyRaises_setEngine s n _

theorem onlyRaises_accept (s : State) (x : HandOff) : OnlyRaises s (s.accept x).1 := by
  rcases accept_cases s x with refused | ⟨-, posted⟩ | ⟨slot, -, pending⟩
  · rw [refused]; exact .refl s
  · rw [posted]; exact (onlyRaises_enqueue s _ _).trans (onlyRaises_raiseRoute _ _)
  · rw [pending]
    exact ((onlyRaises_setEntry s slot _).trans (onlyRaises_enqueue _ _ _)).trans (onlyRaises_raiseRoute _ _)

theorem onlyRaises_access (s : State) (a : Ask) : OnlyRaises s (s.access a).1 := by
  unfold State.access State.newAsk State.collect
  cases s.matching a with
  | some slot =>
    dsimp only
    split
    · exact onlyRaises_endEntry s slot
    · exact .refl s
  | none =>
    dsimp only
    split
    · exact .refl s
    · exact onlyRaises_accept s _

/-! ### Several items at once -/

theorem onlyRaises_raiseLost (s : State) (n : SegmentNumber) (cause : LossCause) (lost : List PostedItem) :
    OnlyRaises s (s.raiseLost n cause lost) := by
  cases lost with
  | nil => exact .refl s
  | cons p rest => exact onlyRaises_raise s _ _ (Nat.succ_pos _)

theorem onlyRaises_withdraw (s : State) (gone : Item → Bool) : OnlyRaises s (s.withdraw gone) := onlyRaises_of_same rfl rfl

theorem onlyRaises_abandon (s : State) (w : WindowNumber) : OnlyRaises s (s.abandon w) := by
  unfold State.abandon State.abandonItems
  refine .trans ?_ (onlyRaises_lower _ w _)
  refine .trans ?_ (onlyRaises_foldl _ (fun t n => onlyRaises_raiseLost t n _ _) _ _)
  refine .trans ?_ (onlyRaises_withdraw _ _)
  exact (onlyRaises_setWindow s w _).trans (onlyRaises_foldl _ (fun t slot => onlyRaises_setEntry t slot _) _ _)

theorem onlyRaises_cancel (s : State) (r : Requester) : OnlyRaises s (s.cancel r) := by
  have entries : OnlyRaises s (s.cancelEntries r) := onlyRaises_of_same rfl rfl
  exact (entries.trans (onlyRaises_withdraw _ _)).trans (onlyRaises_lowerRoutes _ _)

theorem onlyRaises_resetEntry (s : State) (slot : Slot) : OnlyRaises s (s.resetEntry slot) := by
  unfold State.resetEntry
  split
  · exact onlyRaises_setEntry s slot _
  · exact onlyRaises_setEntry s slot _

theorem onlyRaises_resetSegment (s : State) (n : SegmentNumber) : OnlyRaises s (s.resetSegment n) := by
  unfold State.resetSegment
  refine .trans ?_ (onlyRaises_lowerRoutes _ _)
  refine .trans ?_ (onlyRaises_raiseLost _ n _ _)
  exact (onlyRaises_foldl _ onlyRaises_resetEntry _ s).trans (onlyRaises_setEngine _ n _)

/-! ### Items and cycles -/

theorem onlyRaises_startCycle (s : State) (n : SegmentNumber) (e : Engine) (cycles : List Cycle) :
    OnlyRaises s (s.startCycle n e cycles) := by
  rw [startCycle_eq]; exact onlyRaises_of_same rfl rfl

theorem onlyRaises_issue (s : State) (i : Item) : OnlyRaises s (s.issue i) := by
  cases i with
  | posted p => exact .refl s
  | reference slot => exact onlyRaises_setEntry s slot _

theorem onlyRaises_takeHead (s : State) (n : SegmentNumber) : OnlyRaises s (s.takeHead n) := by
  unfold State.takeHead
  dsimp only
  split
  · split
    · exact .refl s
    · exact (onlyRaises_startCycle s n _ _).trans (onlyRaises_issue _ _)
  · exact .refl s

theorem onlyRaises_handBack (s : State) (n : SegmentNumber) (i : Item) (result : ItemResult) (kept : List Byte) :
    OnlyRaises s (s.handBack n i result kept) := by
  unfold State.handBack
  split
  · dsimp only
    split
    · exact onlyRaises_endEntry s _
    · exact onlyRaises_setEntry s _ _
  · split
    · exact (onlyRaises_raise s _ 1 le_rfl).trans (onlyRaises_lowerRoute _ _)
    · exact onlyRaises_lowerRoute s _

theorem onlyRaises_endItem (s : State) (n : SegmentNumber) (result : ItemResult) : OnlyRaises s (s.endItem n result) := by
  unfold State.endItem
  dsimp only
  split
  · exact .refl s
  · exact (onlyRaises_setEngine s n _).trans (onlyRaises_handBack _ _ _ _ _)

theorem onlyRaises_faultSegment (s : State) (n : SegmentNumber) (cause : FaultCause) : OnlyRaises s (s.faultSegment n cause) :=
  (onlyRaises_setEngine s n _).trans (onlyRaises_raise _ _ 1 le_rfl)

/-- A failing cycle ends its item and sets the count (R120, R121). -/
theorem onlyRaises_fails (s : State) (n : SegmentNumber) (result : ItemResult) (count : Nat) :
    OnlyRaises s ((s.endItem n result).countNoResponses n count) :=
  (onlyRaises_endItem s n result).trans (onlyRaises_setEngine _ n _)

theorem onlyRaises_timeOut (s : State) (n : SegmentNumber) : OnlyRaises s (s.timeOut n) := by
  unfold State.timeOut
  split
  · dsimp only
    split
    · exact (onlyRaises_fails s n _ _).trans (onlyRaises_faultSegment _ n _)
    · exact onlyRaises_fails s n _ _
  · exact .refl s

theorem onlyRaises_errCycle (s : State) (answered : CycleName) : OnlyRaises s (s.errCycle answered) := by
  unfold State.errCycle
  dsimp only
  split
  · exact .refl s
  · split
    · exact (onlyRaises_fails s _ _ _).trans (onlyRaises_faultSegment _ _ _)
    · exact onlyRaises_fails s _ _ _

theorem onlyRaises_acknowledge (s : State) (answered : CycleName) (data : BitVec 16) : OnlyRaises s (s.acknowledge answered data) := by
  unfold State.acknowledge
  dsimp only
  split
  · exact .refl s
  · split
    · exact (onlyRaises_setEngine s _ _).trans (onlyRaises_endItem _ _ _)
    · exact onlyRaises_startCycle s _ _ _

/-! ### Resets and the port -/

theorem onlyRaises_leaveRestarting (s : State) : OnlyRaises s s.leaveRestarting := by
  unfold State.leaveRestarting
  split
  · exact onlyRaises_of_same rfl rfl
  · exact .refl s

theorem onlyRaises_endPulse (s : State) (n : SegmentNumber) : OnlyRaises s (s.endPulse n) := by
  unfold State.endPulse
  split
  · exact (onlyRaises_setEngine s n _).trans (onlyRaises_leaveRestarting _)
  · exact .refl s

theorem onlyRaises_send (s : State) (which : Outgoing) : OnlyRaises s (s.send which) := by
  unfold State.send
  split <;> split <;> exact onlyRaises_of_same rfl rfl

theorem onlyRaises_leaseExpiry {s t : State} {w : WindowNumber} (h : execLeaseExpiry w s = .next t) : OnlyRaises s t := by
  unfold execLeaseExpiry at h
  split at h
  · cases h; exact (onlyRaises_setWindow s w _).trans (onlyRaises_settle _ w)
  · cases h; exact .refl s

theorem onlyRaises_discardExpiry {s t : State} {slot : Slot} (h : execDiscardExpiry slot s = .next t) : OnlyRaises s t := by
  unfold execDiscardExpiry at h
  dsimp only at h
  split at h
  · cases h
    exact ((onlyRaises_setEntry s slot _).trans (onlyRaises_raise _ _ 1 le_rfl)).trans (onlyRaises_lowerRoute _ _)
  · cases h; exact .refl s

theorem onlyRaises_pwrgoodRise {s t : State} (h : execPwrgoodRise s = .next t) : OnlyRaises s t := by
  unfold execPwrgoodRise at h
  split at h <;> cases h <;> exact onlyRaises_of_same rfl rfl

/-! ### Commands of the Management Unit -/

/-- A command that, where it is done, only raises notices. -/
def RaisingCommand (c : Command) : Prop := ∀ (s t : State) (block : List Byte), c s = .ok (t, block) → OnlyRaises s t

theorem openCommand_raising (block : List Byte) : RaisingCommand (openCommand block) := by
  intro s t result h
  unfold openCommand at h
  split at h
  · cases h
  · split at h
    · split at h
      · cases h
      · dsimp only at h
        split at h
        · cases h
        · cases h; exact onlyRaises_setWindow s _ _
    · cases h

theorem amendCommand_raising (block : List Byte) : RaisingCommand (amendCommand block) := by
  intro s t result h
  unfold amendCommand at h
  split at h
  · cases h
  · split at h
    · cases h
    · dsimp only at h
      split at h
      · split at h
        · cases h
        · cases h; exact onlyRaises_setWindow s _ _
      · cases h

theorem renewCommand_raising (block : List Byte) : RaisingCommand (renewCommand block) := by
  intro s t result h
  unfold renewCommand at h
  split at h
  · cases h
  · split at h
    · cases h
    · cases h; exact onlyRaises_setWindow s _ _

theorem freezeCommand_raising (block : List Byte) : RaisingCommand (freezeCommand block) := by
  intro s t result h
  unfold freezeCommand at h
  split at h
  · cases h
  · split at h
    · cases h
    · cases h; exact onlyRaises_setWindow s _ _

theorem closeCommand_raising (block : List Byte) : RaisingCommand (closeCommand block) := by
  intro s t result h
  unfold closeCommand at h
  split at h
  · cases h
  · split at h
    · cases h
    · split at h
      · cases h
      · cases h
        split
        · exact onlyRaises_abandon s _
        · split
          · exact (onlyRaises_setWindow s _ _).trans (onlyRaises_settle _ _)
          · exact .refl s

theorem bringOnlineCommand_raising (block : List Byte) : RaisingCommand (bringOnlineCommand block) := by
  intro s t result h
  unfold bringOnlineCommand at h
  split at h
  · cases h
  · split at h
    · cases h; exact onlyRaises_setEngine s _ _
    · cases h

theorem takeOfflineCommand_raising (block : List Byte) : RaisingCommand (takeOfflineCommand block) := by
  intro s t result h
  unfold takeOfflineCommand at h
  split at h
  · cases h
  · dsimp only at h
    split at h
    · cases h
    · split at h
      · cases h
      · cases h; exact onlyRaises_setEngine s _ _

theorem resumeCommand_raising (block : List Byte) : RaisingCommand (resumeCommand block) := by
  intro s t result h
  unfold resumeCommand at h
  split at h
  · cases h
  · split at h
    · cases h; exact onlyRaises_setEngine s _ _
    · cases h

theorem resetSegmentCommand_raising (block : List Byte) : RaisingCommand (resetSegmentCommand block) := by
  intro s t result h
  unfold resetSegmentCommand at h
  split at h
  · cases h
  · split at h
    · cases h
    · cases h; exact onlyRaises_resetSegment s _

theorem cancelRequesterCommand_raising (block : List Byte) : RaisingCommand (cancelRequesterCommand block) := by
  intro s t result h
  unfold cancelRequesterCommand at h
  split at h
  · cases h
  · cases h; exact onlyRaises_cancel s _

/-! ### Every command -/

/-- The Notice Unit and its target through a step. -/
def Moves (s t : State) : Prop := UnitMove s.notices s.settings.noticeTarget t.notices t.settings.noticeTarget

theorem OnlyRaises.moves {s t : State} (h : OnlyRaises s t) : Moves s t := by
  unfold Moves
  rw [h.target]
  exact .raises h.notices

theorem moves_refl (s : State) : Moves s s := (OnlyRaises.refl s).moves

theorem moves_atPort (h : Header) (n : Nat) (f : Requester → State → State × Answer) (s : State)
    (handled : ∀ r, Moves s (f r s).1) : Moves s (atPort h n f s) := by
  rcases atPort_cases h n f s with same | ⟨r, a, -, answered⟩ | ⟨r, -, -, -, done⟩
  · rw [same]; exact moves_refl s
  · rw [answered]; exact moves_refl s
  · rw [done]; exact handled r

theorem moves_manage (h : Header) (ops : List Byte) (c : Command) (s : State)
    (effect : ∀ t block, c s = .ok (t, block) → Moves s t) : Moves s (manage h ops c s) := by
  rcases manage_cases h ops c s with same | ⟨r, a, -, answered, -⟩ | ⟨r, t, block, -, -, -, -, ran, done⟩
  · rw [same]; exact moves_refl s
  · rw [answered]; exact moves_refl s
  · rw [done]; exact effect t block ran

theorem RaisingCommand.moves {c : Command} (raising : RaisingCommand c) (h : Header) (ops : List Byte) (s : State) :
    Moves s (manage h ops c s) :=
  moves_manage h ops c s fun t block done => (raising s t block done).moves

theorem moves_of_onlyReads {c : Command} (reads : OnlyReads c) (h : Header) (ops : List Byte) (s : State) :
    Moves s (manage h ops c s) :=
  moves_manage h ops c s fun t block done => reads s t block done ▸ moves_refl s

theorem moves_access (kind : AccessKind) (h : Header) (body : List Byte) (s : State) : Moves s (accessAtPort kind h body s) := by
  refine moves_atPort h _ _ s fun r => ?_
  split
  · exact (onlyRaises_access s _).moves
  · exact moves_refl s

theorem moves_acknowledgeNotice (s : State) (r : Requester) (q : Byte) : Moves s (s.acknowledgeNotice r q).1 := by
  by_cases target : s.settings.noticeTarget = some r
  · by_cases accepted : s.notices.accepts q = true
    · rw [acknowledgeNotice_accepted s r q target accepted]
      exact .acknowledged ((accepts_iff _ _).1 accepted).1
    · rw [acknowledgeNotice_taken s r q target accepted]; exact moves_refl s
  · rw [acknowledgeNotice_denied s r q target]; exact moves_refl s

theorem moves_noticeAck (h : Header) (body : List Byte) {s t : State} (ran : execNoticeAck h body s = .next t) : Moves s t := by
  cases ran
  refine moves_atPort h _ _ s fun r => ?_
  split
  · exact moves_acknowledgeNotice s r _
  · exact moves_refl s

theorem moves_resumeNotices {ops block : List Byte} {s t : State} (done : resumeNoticesCommand ops s = .ok (t, block)) :
    Moves s t := by
  unfold resumeNoticesCommand at done
  split at done
  · split at done
    · rename_i stalled; cases done; exact .resumes stalled
    · cases done
  · cases done

/-- A write of another setting leaves the target alone (R158, R161). -/
theorem write_noticeTarget {v u : Settings} {name : SettingName} {value : Nat} (fits : value ≤ 0xFFFFFFFF)
    (other : name ≠ .noticeTarget) (written : v.write name value = some u) : u.noticeTarget = v.noticeTarget := by
  have admitted : admits name value := by
    by_contra stray
    rw [write_refused v name value stray] at written
    cases written
  obtain ⟨u', written', -, others⟩ := write_admitted v name value fits admitted
  obtain rfl : u' = u := Option.some.inj (written'.symm.trans written)
  have encoded : optionValue u'.noticeTarget = optionValue v.noticeTarget := others .noticeTarget other.symm
  rw [optionValue_requester, optionValue_requester] at encoded
  have decoded := congrArg (ofOptionValue 32) encoded
  rw [ofOptionValue_requester, ofOptionValue_requester] at decoded
  exact Option.some.inj decoded

theorem afterWrite_of_other (s : State) {name : SettingName} (other : name ≠ .noticeTarget) : s.afterWrite name = s := by
  cases name
  case noticeTarget => exact absurd rfl other
  all_goals rfl

theorem moves_afterWrite {s : State} {name : SettingName} {value : Nat} {v : Settings} (fits : value ≤ 0xFFFFFFFF)
    (written : s.settings.write name value = some v) : Moves s (({ s with settings := v } : State).afterWrite name) := by
  by_cases target : name = .noticeTarget
  · subst target
    exact .retargets v.noticeTarget
  · have same := write_noticeTarget fits target written
    rw [afterWrite_of_other _ target]
    exact OnlyRaises.moves ⟨.nothing, same⟩

theorem moves_writeSetting {ops block : List Byte} {s t : State} (done : writeSettingCommand ops s = .ok (t, block)) : Moves s t := by
  unfold writeSettingCommand at done
  split at done
  · split at done
    · cases done
    · split at done
      · cases done
      · rename_i written
        split at done
        · cases done
        · cases done
          exact moves_afterWrite (Nat.le_of_lt_succ (fieldAt_lt ops 2 4)) written
  · cases done

theorem moves_warmReset (s : State) : Moves s s.warmReset := .resets

theorem moves_warmResetCommand {ops block : List Byte} {s t : State} (done : warmResetCommand ops s = .ok (t, block)) : Moves s t := by
  unfold warmResetCommand at done
  split at done
  · cases done; exact moves_warmReset s
  · cases done

theorem moves_unknownCommand (h : Header) (body : List Byte) {s t : State} (ran : execUnknownCommand h body s = .next t) :
    Moves s t := by
  cases ran
  refine moves_atPort h _ _ s fun r => ?_
  split
  · exact moves_refl s
  · split <;> exact moves_refl s

theorem moves_warmNAssert {s t : State} (h : execWarmNAssert s = .next t) : Moves s t := by
  unfold execWarmNAssert at h
  split at h
  · cases h; exact moves_warmReset s
  · cases h; exact moves_refl s

theorem moves_coldResetEnd {s t : State} (h : execColdResetEnd s = .next t) : Moves s t := by
  unfold execColdResetEnd at h
  split at h
  · cases h; exact moves_refl s
  · split at h
    · split at h
      · cases h; exact moves_warmReset s
      · cases h; exact moves_refl s
    · cases h; exact moves_refl s
  · cases h; exact moves_refl s

theorem moves_ackTimerExpiry {s t : State} (h : execAckTimerExpiry s = .next t) : Moves s t := by
  by_cases expires : MayExpire s.notices.ackTimer
  · rw [execAckTimerExpiry_of_mayExpire s expires] at h
    cases h
    obtain ⟨x, runs, -⟩ := expires
    exact .expires (by rw [runs]; exact Option.some_ne_none x)
  · rw [ackTimerExpiry_early s (mayExpire_eq_false _ expires)] at h
    cases h; exact moves_refl s

theorem moves_sendHead (s : State) : Moves s s.sendHead := by
  unfold State.sendHead
  split
  · rename_i target head rest named idle queue
    exact .sends head rest _ (by rw [named]; exact Option.some_ne_none target) idle queue
  · exact moves_refl s

/-- What each of the 44 commands can do to the Notice Unit. -/
theorem exec_moves (c : Instr) (s t : State) (h : exec c s = .next t) : Moves s t := by
  cases c with
  | read header body => cases h; exact moves_access .read header body s
  | write header body => cases h; exact moves_access .write header body s
  | noticeAck header body => exact moves_noticeAck header body h
  | openWindow header ops => cases h; exact (openCommand_raising ops).moves header ops s
  | amend header ops => cases h; exact (amendCommand_raising ops).moves header ops s
  | renew header ops => cases h; exact (renewCommand_raising ops).moves header ops s
  | freeze header ops => cases h; exact (freezeCommand_raising ops).moves header ops s
  | close header ops => cases h; exact (closeCommand_raising ops).moves header ops s
  | closeWithAbandon header ops => cases h; exact (closeCommand_raising ops).moves header ops s
  | query header ops => cases h; exact moves_of_onlyReads (queryCommand_onlyReads ops) header ops s
  | lookup header ops => cases h; exact moves_of_onlyReads (lookupCommand_onlyReads ops) header ops s
  | bringOnline header ops => cases h; exact (bringOnlineCommand_raising ops).moves header ops s
  | takeOffline header ops => cases h; exact (takeOfflineCommand_raising ops).moves header ops s
  | resume header ops => cases h; exact (resumeCommand_raising ops).moves header ops s
  | resetSegment header ops => cases h; exact (resetSegmentCommand_raising ops).moves header ops s
  | segmentStatus header ops => cases h; exact moves_of_onlyReads (segmentStatusCommand_onlyReads ops) header ops s
  | pendingStatus header ops => cases h; exact moves_of_onlyReads (pendingStatusCommand_onlyReads ops) header ops s
  | cancelRequester header ops => cases h; exact (cancelRequesterCommand_raising ops).moves header ops s
  | resumeNotices header ops => cases h; exact moves_manage _ _ _ s fun _ _ => moves_resumeNotices
  | noticeStatus header ops => cases h; exact moves_of_onlyReads (noticeStatusCommand_onlyReads ops) header ops s
  | readSetting header ops => cases h; exact moves_of_onlyReads (readSettingCommand_onlyReads ops) header ops s
  | writeSetting header ops => cases h; exact moves_manage _ _ _ s fun _ _ => moves_writeSetting
  | noticeTarget header rest => cases h; exact moves_manage _ _ _ s fun _ _ => moves_writeSetting
  | segnWidth header rest => cases h; exact moves_manage _ _ _ s fun _ _ => moves_writeSetting
  | managementSet header rest => cases h; exact moves_manage _ _ _ s fun _ _ => moves_writeSetting
  | identify header ops => cases h; exact moves_of_onlyReads (identifyCommand_onlyReads ops) header ops s
  | warmReset header ops => cases h; exact moves_manage _ _ _ s fun _ _ => moves_warmResetCommand
  | unknownCommand header body => exact moves_unknownCommand header body h
  | warmNAssert => exact moves_warmNAssert h
  | warmNRelease => cases h; exact (onlyRaises_leaveRestarting { s with warmN := false }).moves
  | pwrgoodFall => cases h; exact .resets
  | coldResetEnd => exact moves_coldResetEnd h
  | leaseExpiry w => exact (onlyRaises_leaseExpiry h).moves
  | discardExpiry slot => exact (onlyRaises_discardExpiry h).moves
  | cycleTimeout n => cases h; exact (onlyRaises_timeOut s n).moves
  | cycleAcknowledged answered data => cases h; exact (onlyRaises_acknowledge s answered data).moves
  | targetError answered => cases h; exact (onlyRaises_errCycle s answered).moves
  | resetPulseExpiry n => cases h; exact (onlyRaises_endPulse s n).moves
  | ackTimerExpiry => exact moves_ackTimerExpiry h
  | takeHead n => cases h; exact (onlyRaises_takeHead s n).moves
  | noticeSend => cases h; exact moves_sendHead s
  | pwrgoodRise => exact (onlyRaises_pwrgoodRise h).moves
  | askOfUnknownKind message => cases h; exact moves_atPort _ _ _ s fun _ => moves_refl s
  | messageLeavesPort which => cases h; exact (onlyRaises_send s which).moves

/-! ### Every step -/

theorem step_moves (s t : State) (h : step s = .next t) : Moves s t := by
  unfold step at h
  split at h
  · cases h; exact .ticks
  · rename_i c rest _
    exact exec_moves c { s with pending := rest } t h

/-- Settles O58: each move of `step_moves` keeps the queue and what its delivery state says. -/
theorem stepsKeepTheNoticeUnit : Obligations.StepsKeepTheNoticeUnit :=
  fun s t ok h => noticesOk_of_unitMove ok (step_moves s t h)

end Sys2Proof.Proofs.NoticeMoves

/-! SUPPORT. The Management Unit (R154–R165): who is permitted and which codes are known, what the reads and writes of settings answer, and
what a refusal leaves. -/

namespace Sys2Proof.Proofs.Management

open Sys2Proof Sys2Proof.Machine Sys2Proof.Safety Sys2Proof.Proofs.Rows Sys2Proof.Proofs.Answers Sys2Proof.Proofs.Exchange
open Sys2Proof.Proofs.NoticeMoves

/-! ### Permission and unknown codes -/

/-- A well-formed ask of an unknown code, past the checks of its layout: the permission check comes first (R154–R156). -/
theorem exec_unknownCommand (s : State) (r : Requester) (code : Byte) (block : List Byte) (running : Running s)
    (short : block.length ≤ 24) :
    exec (.unknownCommand (header r (block.length + 1)) (code :: block)) s
      = .next (s.answer r (.fault (if s.permits r then .unknownCommand else .notPermitted))) := by
  have fits : ¬ (code :: block = [] ∨ Config.operandLimit + 1 < (code :: block).length) :=
    not_or.2 ⟨List.cons_ne_nil code block, by rw [List.length_cons, Config.operandLimit]; omega⟩
  have whole := headerOk_header r (code :: block).length (by rw [List.length_cons]; omega)
  refine congrArg _ ((atPort_running _ _ _ s r running.1 (sender_header r _) running.2 whole).trans ?_)
  simp only [if_neg fits]
  cases s.permits r <;> rfl

/-- Whatever its command, a well-formed ask from outside MANAGEMENT-SET is denied before a block sees it (R155). -/
theorem exec_denied (s : State) (r : Requester) (code : Byte) (block : List Byte) (running : Running s) (short : block.length ≤ 24)
    (outside : s.permits r = false) :
    exec (ofCommandCode (header r (block.length + 1)) code block) s = .next (s.answer r (.fault .notPermitted)) := by
  rcases ofCommandCode_cases code with ⟨c, runs⟩ | unknown
  · have whole := headerOk_header r (block.length + 1) (by omega)
    rw [runs, manage_denied _ _ _ s r running.1 running.2 (sender_header r _) whole short outside]
  · rw [unknown, exec_unknownCommand s r code block running short, if_neg (Bool.eq_false_iff.1 outside)]

/-- Settles O47: the permission check stands before the command, and before the answer to an unknown code. -/
theorem permissionAndUnknownCodes : Obligations.PermissionAndUnknownCodes := by
  intro s r code block running short
  refine ⟨exec_denied s r code block running short, fun member _ => ?_⟩
  have permitted : s.permits r = true := member
  rw [exec_unknownCommand s r code block running short, if_pos permitted]

/-! ### READ-SETTING and IDENTIFY -/

theorem readSetting_runs : RowRuns .readSetting readSettingCommand := fun _ _ _ => rfl

theorem identify_runs : RowRuns .identify identifyCommand := fun _ _ _ => rfl

theorem readSettingCommand_named (s : State) (name : SettingName) :
    readSettingCommand [(settingCode name).1, (settingCode name).2] s
      = .ok (s, [(settingCode name).1, (settingCode name).2] ++ fieldOf 4 (settingValue s.settings name)) := by
  simp only [readSettingCommand, List.length_cons, List.length_nil, if_true, byteAt_zero, byteAt_succ, ofCode_settingCode,
    settingValue_eq_value]

theorem readSettingCommand_unnamed (s : State) (code segment : Byte) (unnamed : ∀ name, settingCode name ≠ (code, segment)) :
    readSettingCommand [code, segment] s = .error .badOperand := by
  simp only [readSettingCommand, List.length_cons, List.length_nil, if_true, byteAt_zero, byteAt_succ,
    (ofCode_none_iff code segment).1 unnamed]

/-- Settles O50, by the code and segment that the ask names. -/
theorem readSettingAndIdentify : Obligations.ReadSettingAndIdentify := by
  intro s r member
  refine ⟨fun name => ?_, fun code segment unnamed => ?_, ?_⟩
  · exact readSetting_runs.done member (by simp) (readSettingCommand_named s name)
  · exact readSetting_runs.refused member (by simp) (readSettingCommand_unnamed s code segment unnamed)
  · exact identify_runs.done member (by simp) rfl

/-! ### WRITE-SETTING -/

/-- The operand block that writes a value to a setting (R178). -/
def settingBlock (name : SettingName) (value : Nat) : List Byte :=
  [(settingCode name).1, (settingCode name).2] ++ fieldOf 4 value

theorem settingBlock_length (name : SettingName) (value : Nat) : (settingBlock name value).length = 6 := by simp [settingBlock]

theorem settingBlock_name (name : SettingName) (value : Nat) :
    SettingName.ofCode (byteAt (settingBlock name value) 0) (byteAt (settingBlock name value) 1) = some name :=
  ofCode_settingCode name

theorem settingBlock_value (name : SettingName) (value : Nat) (fits : value ≤ 0xFFFFFFFF) :
    fieldAt (settingBlock name value) 2 4 = value :=
  numberOf_fieldOf 4 value (by omega)

/-- A write of a value outside the encoding or the range of its setting is refused (R161, check 4). -/
theorem writeSettingCommand_out_of_range (s : State) (name : SettingName) (value : Nat) (fits : value ≤ 0xFFFFFFFF)
    (stray : ¬ admits name value) : writeSettingCommand (settingBlock name value) s = .error .badOperand := by
  simp only [writeSettingCommand, if_pos (settingBlock_length name value), settingBlock_name, settingBlock_value name value fits,
    write_refused s.settings name value stray]

/-- A write of a value in range, by the check of R162 on the width of a segment. -/
theorem writeSettingCommand_in_range (s : State) (name : SettingName) (value : Nat) (v : Settings) (fits : value ≤ 0xFFFFFFFF)
    (written : s.settings.write name value = some v) :
    writeSettingCommand (settingBlock name value) s
      = if s.widthHeld name then .error .busy
        else .ok (({ s with settings := v } : State).afterWrite name,
          [(settingCode name).1, (settingCode name).2] ++ fieldOf 4 (s.settings.value name) ++ fieldOf 4 (v.value name)) := by
  simp only [writeSettingCommand, if_pos (settingBlock_length name value), settingBlock_name, settingBlock_value name value fits,
    written]
  rfl

/-- Settles O51: `write_admitted` gives the one setting that takes the value, and no write but NOTICE-TARGET's does more. -/
theorem writeSettingChangesOneValue : Obligations.WriteSettingChangesOneValue := by
  intro s r name value member other fits
  have runs := rowRuns_ofCommandCode runs_51h
  have short : (settingBlock name value).length ≤ 24 := by rw [settingBlock_length]; decide
  refine ⟨fun stray => ?_, fun admitted held => ?_, fun admitted free => ?_⟩
  · exact runs.refused member short (writeSettingCommand_out_of_range s name value fits stray)
  all_goals
    obtain ⟨v, written, takes, keeps⟩ := write_admitted s.settings name value fits admitted
    have done := writeSettingCommand_in_range s name value v fits written
  · rw [if_pos ((widthHeld_iff s name).2 held)] at done
    exact runs.refused member short done
  · rw [if_neg (mt (widthHeld_iff s name).1 free), afterWrite_of_other _ other, takes] at done
    simp only [settingValue_eq_value]
    exact ⟨v, runs.done member short done, takes, keeps⟩

/-! ### Refused commands -/

/-- What can become of a MANAGE ask: nothing, one answer on the state as it was, or MANAGED on a state that the command leaves, with the
answers before it in place. -/
def AnswersOrManages (i : Instr) : Prop :=
  ∀ s t : State, exec i s = .next t →
    t = s ∨ (∃ r a, t = s.answer r a)
      ∨ ∃ (r : Requester) (u : State) (block : List Byte), u.answers = s.answers ∧ t = u.answer r (.managed block)

theorem answersOrManages_unknownCommand (h : Header) (body : List Byte) : AnswersOrManages (.unknownCommand h body) := by
  intro s t ran
  cases ran
  rcases atPort_cases h body.length _ s with same | ⟨r, a, -, answered⟩ | ⟨r, -, -, -, handled⟩
  · exact .inl same
  · exact .inr (.inl ⟨r, a, answered⟩)
  · refine .inr (.inl ⟨r, _, handled.trans (congrArg (State.answer · r _) ?_)⟩)
    split_ifs <;> rfl

theorem answersOrManages_ofManage (h : Header) (body : List Byte) : AnswersOrManages (ofManage h body) := by
  cases body with
  | nil => exact answersOrManages_unknownCommand h []
  | cons code ops =>
    by_cases listed : code ∈ commandCodes
    · obtain ⟨c, runs, sound⟩ := sound_of_mem code listed
      intro s t ran
      rw [ofManage, runs] at ran
      cases ran
      rcases manage_cases h ops (c ops) s with same | ⟨r, a, -, answered, -⟩ | ⟨r, u, block, -, -, -, -, ok, done⟩
      · exact .inl same
      · exact .inr (.inl ⟨r, a, answered⟩)
      · exact .inr (.inr ⟨r, u, block, ((sound ops).keeps s u block ok).answers, done⟩)
    · rw [ofManage, ofCommandCode_unknown code listed]
      exact answersOrManages_unknownCommand h (code :: ops)

theorem ofMessage_manage (m : List Byte) (kind : m.head? = some 0x03) : Instr.ofMessage m = ofManage (headerOf m) (bodyOf m) := by
  obtain ⟨rest, rfl⟩ := List.head?_eq_some_iff.1 kind
  rfl

/-- Settles O52: the answer that is seen is the one that was given, and only MANAGED comes with another state. -/
theorem refusedCommandsChangeNothing : Obligations.RefusedCommandsChangeNothing := by
  intro m s t r a manage ran answered refused
  rw [ofMessage_manage m manage] at ran
  rcases answersOrManages_ofManage _ _ s t ran with rfl | ⟨r', a', rfl⟩ | ⟨r', u, block, before, rfl⟩
  · simp at answered
  · rw [State.answer_answers, List.append_right_inj, List.singleton_inj] at answered
    cases answered
    rfl
  · rw [State.answer_answers, before, List.append_right_inj, List.singleton_inj] at answered
    cases answered
    exact absurd rfl (refused block)

end Sys2Proof.Proofs.Management

/-! SUPPORT. The queue of commands (R157, 95_what_each_step_holds.md): no operation of a block touches it, and every command completes. -/

namespace Sys2Proof.Proofs.Completion

open Sys2Proof Sys2Proof.Machine Sys2Proof.Safety Sys2Proof.Proofs.Effects Sys2Proof.Proofs.Engines Sys2Proof.Proofs.Lifetime

/-! ### The shared operations -/

@[simp] theorem settle_pending (s : State) (w : WindowNumber) : (s.settle w).pending = s.pending := (settle_frame s w).pending

@[simp] theorem lower_pending (s : State) (w : WindowNumber) (n : Nat) : (s.lower w n).pending = s.pending := (lower_frame s w n).pending

@[simp] theorem lowerRoute_pending (s : State) (r : Route) : (s.lowerRoute r).pending = s.pending := (lowerRoute_frame s r).pending

@[simp] theorem lowerRoutes_pending (s : State) (routes : List Route) : (s.lowerRoutes routes).pending = s.pending :=
  (lowerRoutes_frame s routes).pending

@[simp] theorem raiseRoute_pending (s : State) (r : Route) : (s.raiseRoute r).pending = s.pending := (raiseRoute_frame s r).pending

@[simp] theorem completeEntry_pending (s : State) (slot : Slot) (outcome : EntryOutcome) (data : Option (List Byte)) :
    (s.completeEntry slot outcome data).pending = s.pending := rfl

@[simp] theorem endEntry_pending (s : State) (slot : Slot) : (s.endEntry slot).pending = s.pending :=
  lowerRoute_pending (s.freeEntry slot) _

@[simp] theorem enqueue_pending (s : State) (n : SegmentNumber) (i : Item) : (s.enqueue n i).pending = s.pending := rfl

@[simp] theorem withdraw_pending (s : State) (gone : Item → Bool) : (s.withdraw gone).pending = s.pending := rfl

theorem accept_pending (s : State) (x : HandOff) : (s.accept x).1.pending = s.pending := by
  rcases accept_cases s x with refused | ⟨-, posted⟩ | ⟨slot, -, created⟩
  · rw [refused]
  · rw [posted]; simp
  · rw [created]; simp

theorem abandon_pending (s : State) (w : WindowNumber) : (s.abandon w).pending = s.pending := by
  obtain ⟨entries, engines, notices, items⟩ := abandonItems_frame (s.setWindow w (s.windows[w].closed .abandoned)) (s.routeOf w)
  simp only [State.abandon, lower_pending, items, State.setWindow_pending]

theorem cancelEntries_pending (s : State) (r : Requester) : (s.cancelEntries r).pending = s.pending := rfl

theorem cancel_pending (s : State) (r : Requester) : (s.cancel r).pending = s.pending := by
  unfold State.cancel
  rw [lowerRoutes_pending, withdraw_pending, cancelEntries_pending]

theorem resetSegment_pending (s : State) (n : SegmentNumber) : (s.resetSegment n).pending = s.pending := by
  obtain ⟨notices, reset⟩ := resetSegment_eq s n
  rw [reset]; simp

/-! ### Items and cycles -/

@[simp] theorem startCycle_pending (s : State) (n : SegmentNumber) (e : Engine) (cycles : List Cycle) :
    (s.startCycle n e cycles).pending = s.pending := by
  rw [startCycle_eq]; rfl

@[simp] theorem issue_pending (s : State) (i : Item) : (s.issue i).pending = s.pending := by cases i <;> rfl

theorem takeHead_pending (s : State) (n : SegmentNumber) : (s.takeHead n).pending = s.pending := by
  unfold State.takeHead
  dsimp only
  split
  · split
    · rfl
    · simp
  · rfl

@[simp] theorem handBack_pending (s : State) (n : SegmentNumber) (i : Item) (result : ItemResult) (kept : List Byte) :
    (s.handBack n i result kept).pending = s.pending := by
  unfold State.handBack
  cases i with
  | reference slot => dsimp only; split <;> simp
  | posted p => dsimp only; split <;> simp

@[simp] theorem endItem_pending (s : State) (n : SegmentNumber) (result : ItemResult) : (s.endItem n result).pending = s.pending := by
  unfold State.endItem
  dsimp only
  split <;> simp

@[simp] theorem countNoResponses_pending (s : State) (n : SegmentNumber) (count : Nat) :
    (s.countNoResponses n count).pending = s.pending := rfl

@[simp] theorem faultSegment_pending (s : State) (n : SegmentNumber) (cause : FaultCause) :
    (s.faultSegment n cause).pending = s.pending := rfl

theorem acknowledge_pending (s : State) (answered : CycleName) (data : BitVec 16) :
    (s.acknowledge answered data).pending = s.pending := by
  unfold State.acknowledge
  dsimp only
  split
  · rfl
  · split <;> simp

theorem timeOut_pending (s : State) (n : SegmentNumber) : (s.timeOut n).pending = s.pending := by
  unfold State.timeOut
  dsimp only
  split
  · split <;> simp
  · rfl

theorem errCycle_pending (s : State) (answered : CycleName) : (s.errCycle answered).pending = s.pending := by
  unfold State.errCycle
  dsimp only
  split
  · rfl
  · split <;> simp

/-! ### Every effect -/

theorem effect_pending {s t : State} (h : Effect s t) : t.pending = s.pending := by
  cases h with
  | nothing => rfl
  | endsEntry slot done => exact endEntry_pending s slot
  | accepts a x new passes => exact accept_pending s x
  | opens w o free mapping top clear => rfl
  | amends w o allowed mapping top clear => rfl
  | renews w lease allowed => rfl
  | freezes w allowed => rfl
  | closes w reason allowed => exact settle_pending _ w
  | abandons w used thawed => exact abandon_pending s w
  | cancels r => exact cancel_pending s r
  | turns n e turn => rfl
  | resets n => exact resetSegment_pending s n
  | takesHead n => exact takeHead_pending s n
  | acknowledges answered data => exact acknowledge_pending s answered data
  | timesOut n => exact timeOut_pending s n
  | errs answered => exact errCycle_pending s answered
  | warms => rfl
  | writes name value v field written => rfl

/-! ### Asks -/

theorem atPort_pending (h : Header) (n : Nat) (f : Requester → State → State × Answer) (s : State)
    (handled : ∀ r, (f r s).1.pending = s.pending) : (atPort h n f s).pending = s.pending := by
  rcases atPort_cases h n f s with same | ⟨r, a, -, answered⟩ | ⟨r, -, -, -, done⟩
  · rw [same]
  · rw [answered, State.answer_pending]
  · rw [done, State.answer_pending, handled r]

theorem accessAtPort_pending (kind : AccessKind) (h : Header) (body : List Byte) (s : State) :
    (accessAtPort kind h body s).pending = s.pending := by
  refine atPort_pending h _ _ s fun r => ?_
  split
  · exact effect_pending (access_effect s _)
  · rfl

theorem acknowledgeNotice_pending (s : State) (r : Requester) (sequence : Byte) :
    (s.acknowledgeNotice r sequence).1.pending = s.pending := by
  unfold State.acknowledgeNotice
  split
  · split <;> rfl
  · rfl

/-- A command leaves the queue alone where it is done. -/
def KeepsQueue (c : Command) : Prop := ∀ s t block, c s = .ok (t, block) → t.pending = s.pending

theorem keepsQueue_of_effect {c : Command} (effect : ∀ s t block, c s = .ok (t, block) → Effect s t) : KeepsQueue c :=
  fun s t block ok => effect_pending (effect s t block ok)

theorem keepsQueue_of_onlyReads {c : Command} (reads : OnlyReads c) : KeepsQueue c :=
  fun s t block ok => congrArg State.pending (reads s t block ok)

theorem resumeNoticesCommand_keepsQueue (block : List Byte) : KeepsQueue (resumeNoticesCommand block) := by
  intro s t result h
  unfold resumeNoticesCommand at h
  split at h
  · split at h <;> cases h
    rfl
  · cases h

theorem afterWrite_pending (s : State) (name : SettingName) : (s.afterWrite name).pending = s.pending := by cases name <;> rfl

theorem writeSettingCommand_keepsQueue (block : List Byte) : KeepsQueue (writeSettingCommand block) := by
  intro s t result h
  unfold writeSettingCommand at h
  split at h
  · split at h
    · cases h
    · split at h
      · cases h
      · split at h <;> cases h
        exact afterWrite_pending _ _
  · cases h

/-! ### Every command -/

/-- An outcome is a next state with the queue as it was. -/
def Completes (s : State) (o : Host.Outcome State Fault Refusal) : Prop := ∃ t, o = .next t ∧ t.pending = s.pending

theorem completes_next {s t : State} (queue : t.pending = s.pending) : Completes s (.next t) := ⟨t, rfl, queue⟩

theorem completes_manage {c : Command} (keeps : KeepsQueue c) (h : Header) (ops : List Byte) (s : State) :
    Completes s (.next (manage h ops c s)) := by
  refine completes_next ?_
  rcases manage_cases h ops c s with same | ⟨r, a, -, answered, -⟩ | ⟨r, t, block, -, -, -, -, ok, done⟩
  · rw [same]
  · rw [answered, State.answer_pending]
  · rw [done, State.answer_pending, keeps s t block ok]

theorem unknownCommand_completes (h : Header) (body : List Byte) (s : State) : Completes s (execUnknownCommand h body s) := by
  refine completes_next (atPort_pending h _ _ s fun r => ?_)
  split_ifs <;> rfl

theorem noticeAck_completes (h : Header) (body : List Byte) (s : State) : Completes s (execNoticeAck h body s) := by
  refine completes_next (atPort_pending h _ _ s fun r => ?_)
  split
  · exact acknowledgeNotice_pending s r _
  · rfl

theorem warmNAssert_completes (s : State) : Completes s (execWarmNAssert s) := by
  unfold execWarmNAssert
  split <;> exact completes_next rfl

theorem pwrgoodRise_completes (s : State) : Completes s (execPwrgoodRise s) := by
  unfold execPwrgoodRise
  split <;> exact completes_next rfl

theorem coldResetEnd_completes (s : State) : Completes s (execColdResetEnd s) := by
  unfold execColdResetEnd
  split
  · exact completes_next rfl
  · split_ifs <;> exact completes_next rfl
  · exact completes_next rfl

theorem leaseExpiry_completes (s : State) (w : WindowNumber) : Completes s (execLeaseExpiry w s) := by
  unfold execLeaseExpiry
  split
  · exact completes_next (settle_pending _ w)
  · exact completes_next rfl

theorem discardExpiry_completes (s : State) (slot : Slot) : Completes s (execDiscardExpiry slot s) := by
  unfold execDiscardExpiry
  dsimp only
  split
  · exact completes_next (lowerRoute_pending _ _)
  · exact completes_next rfl

theorem ackTimerExpiry_completes (s : State) : Completes s (execAckTimerExpiry s) := by
  unfold execAckTimerExpiry
  split <;> exact completes_next rfl

@[simp] theorem leaveRestarting_pending (s : State) : s.leaveRestarting.pending = s.pending := by
  unfold State.leaveRestarting
  split <;> rfl

theorem endPulse_pending (s : State) (n : SegmentNumber) : (s.endPulse n).pending = s.pending := by
  unfold State.endPulse
  split
  · exact leaveRestarting_pending _
  · rfl

theorem sendHead_pending (s : State) : s.sendHead.pending = s.pending := by
  unfold State.sendHead
  split <;> rfl

theorem send_pending (s : State) (which : Outgoing) : (s.send which).pending = s.pending := by
  cases which <;> (unfold State.send; dsimp only; split <;> rfl)

/-- Settles O2, row by row: an ask through the port and its command's effect, an event by its own meaning. -/
theorem everyCommandCompletes : Obligations.EveryCommandCompletes := by
  intro c s
  change Completes s (exec c s)
  cases c with
  | read header body => exact completes_next (accessAtPort_pending .read header body s)
  | write header body => exact completes_next (accessAtPort_pending .write header body s)
  | noticeAck header body => exact noticeAck_completes header body s
  | openWindow header ops => exact completes_manage (keepsQueue_of_effect (openCommand_effect ops)) header ops s
  | amend header ops => exact completes_manage (keepsQueue_of_effect (amendCommand_effect ops)) header ops s
  | renew header ops => exact completes_manage (keepsQueue_of_effect (renewCommand_effect ops)) header ops s
  | freeze header ops => exact completes_manage (keepsQueue_of_effect (freezeCommand_effect ops)) header ops s
  | close header ops => exact completes_manage (keepsQueue_of_effect (closeCommand_effect ops)) header ops s
  | closeWithAbandon header ops => exact completes_manage (keepsQueue_of_effect (closeCommand_effect ops)) header ops s
  | query header ops => exact completes_manage (keepsQueue_of_onlyReads (queryCommand_onlyReads ops)) header ops s
  | lookup header ops => exact completes_manage (keepsQueue_of_onlyReads (lookupCommand_onlyReads ops)) header ops s
  | bringOnline header ops => exact completes_manage (keepsQueue_of_effect (bringOnlineCommand_effect ops)) header ops s
  | takeOffline header ops => exact completes_manage (keepsQueue_of_effect (takeOfflineCommand_effect ops)) header ops s
  | resume header ops => exact completes_manage (keepsQueue_of_effect (resumeCommand_effect ops)) header ops s
  | resetSegment header ops => exact completes_manage (keepsQueue_of_effect (resetSegmentCommand_effect ops)) header ops s
  | segmentStatus header ops => exact completes_manage (keepsQueue_of_onlyReads (segmentStatusCommand_onlyReads ops)) header ops s
  | pendingStatus header ops => exact completes_manage (keepsQueue_of_onlyReads (pendingStatusCommand_onlyReads ops)) header ops s
  | cancelRequester header ops => exact completes_manage (keepsQueue_of_effect (cancelRequesterCommand_effect ops)) header ops s
  | resumeNotices header ops => exact completes_manage (resumeNoticesCommand_keepsQueue ops) header ops s
  | noticeStatus header ops => exact completes_manage (keepsQueue_of_onlyReads (noticeStatusCommand_onlyReads ops)) header ops s
  | readSetting header ops => exact completes_manage (keepsQueue_of_onlyReads (readSettingCommand_onlyReads ops)) header ops s
  | writeSetting header ops => exact completes_manage (writeSettingCommand_keepsQueue ops) header ops s
  | noticeTarget header rest => exact completes_manage (writeSettingCommand_keepsQueue (0x07 :: rest)) header _ s
  | segnWidth header rest => exact completes_manage (writeSettingCommand_keepsQueue (0x10 :: rest)) header _ s
  | managementSet header rest => exact completes_manage (writeSettingCommand_keepsQueue (0x01 :: rest)) header _ s
  | identify header ops => exact completes_manage (keepsQueue_of_onlyReads (identifyCommand_onlyReads ops)) header ops s
  | warmReset header ops => exact completes_manage (keepsQueue_of_effect (warmResetCommand_effect ops)) header ops s
  | unknownCommand header body => exact unknownCommand_completes header body s
  | warmNAssert => exact warmNAssert_completes s
  | warmNRelease => exact completes_next (leaveRestarting_pending { s with warmN := false })
  | pwrgoodFall => exact completes_next rfl
  | coldResetEnd => exact coldResetEnd_completes s
  | leaseExpiry w => exact leaseExpiry_completes s w
  | discardExpiry slot => exact discardExpiry_completes s slot
  | cycleTimeout n => exact completes_next (timeOut_pending s n)
  | cycleAcknowledged answered data => exact completes_next (acknowledge_pending s answered data)
  | targetError answered => exact completes_next (errCycle_pending s answered)
  | resetPulseExpiry n => exact completes_next (endPulse_pending s n)
  | ackTimerExpiry => exact ackTimerExpiry_completes s
  | takeHead n => exact completes_next (takeHead_pending s n)
  | noticeSend => exact completes_next (sendHead_pending s)
  | pwrgoodRise => exact pwrgoodRise_completes s
  | askOfUnknownKind message => exact completes_next (atPort_pending _ _ _ s fun _ => rfl)
  | messageLeavesPort which => exact completes_next (send_pending s which)

end Sys2Proof.Proofs.Completion

/-! SUPPORT. The messages of the port (R171, R172, R175, R176, R178): the row that a message is and the message that a row spells are
inverse, through each layer of the decoder: the message kind, the header, the command code and the setting code. -/

namespace Sys2Proof.Proofs.MessageFormats

open Sys2Proof Sys2Proof.Safety Sys2Proof.Proofs.Answers Sys2Proof.Proofs.Exchange

/-! ### Codes with rows of their own -/

theorem not_mem_ownRowSettings_iff (setting : Byte) : setting ∉ ownRowSettings ↔ setting ≠ 0x01 ∧ setting ≠ 0x07 ∧ setting ≠ 0x10 := by
  simp [ownRowSettings]

theorem not_mem_askKinds_iff (kind : Byte) : kind ∉ askKinds ↔ kind ≠ 0x01 ∧ kind ≠ 0x02 ∧ kind ≠ 0x03 ∧ kind ≠ 0x04 := by
  simp [askKinds]

/-! ### The row of a message spells that message -/

/-- A command that is the row of a message, and whose message it is. -/
def Spells (c : Instr) (m : List Byte) : Prop := c.wellFormed = true ∧ c.message = some m

/-- Every setting code gives its write a row, and only the codes with rows of their own leave WRITE-SETTING (R178). -/
theorem spells_ofWriteSetting {h : Header} (whole : h.isWhole = true) (block : List Byte) :
    Spells (ofWriteSetting h block) (spell 0x03 h (0x51 :: block)) := by
  cases block with
  | nil => exact ⟨by simp [ofWriteSetting, Instr.wellFormed, whole], rfl⟩
  | cons setting rest =>
    simp only [ofWriteSetting]
    split_ifs with managementSet noticeTarget segnWidth
    · exact managementSet ▸ ⟨whole, rfl⟩
    · exact noticeTarget ▸ ⟨whole, rfl⟩
    · exact segnWidth ▸ ⟨whole, rfl⟩
    · have other := (not_mem_ownRowSettings_iff setting).2 ⟨managementSet, noticeTarget, segnWidth⟩
      exact ⟨by simp [Instr.wellFormed, whole, other], rfl⟩

/-- The ABANDON bit tells the two rows of CLOSE apart (R176). -/
theorem spells_close {h : Header} (whole : h.isWhole = true) (ops : List Byte) :
    Spells (if abandonBit ops then .closeWithAbandon h ops else .close h ops) (spell 0x03 h (0x14 :: ops)) := by
  cases bit : abandonBit ops with
  | true => exact ⟨by simp [Instr.wellFormed, whole, bit], rfl⟩
  | false => exact ⟨by simp [Instr.wellFormed, whole, bit], rfl⟩

/-- The row of a command code keeps the code and the operands (R175). -/
theorem spells_ofCommandCode_of_mem {h : Header} (whole : h.isWhole = true) (ops : List Byte) :
    ∀ code ∈ commandCodes, Spells (ofCommandCode h code ops) (spell 0x03 h (code :: ops)) := by
  have plain {code : Byte} {row : Header → List Byte → Instr} (wellFormed : (row h ops).wellFormed = h.isWhole)
      (message : (row h ops).message = some (spell 0x03 h (code :: ops))) : Spells (row h ops) (spell 0x03 h (code :: ops)) :=
    ⟨wellFormed.trans whole, message⟩
  simp only [commandCodes, List.forall_mem_cons]
  exact ⟨plain (row := .openWindow) rfl rfl, plain (row := .amend) rfl rfl, plain (row := .renew) rfl rfl,
    plain (row := .freeze) rfl rfl, spells_close whole ops, plain (row := .query) rfl rfl, plain (row := .lookup) rfl rfl,
    plain (row := .bringOnline) rfl rfl, plain (row := .takeOffline) rfl rfl, plain (row := .resume) rfl rfl,
    plain (row := .resetSegment) rfl rfl, plain (row := .segmentStatus) rfl rfl, plain (row := .pendingStatus) rfl rfl,
    plain (row := .cancelRequester) rfl rfl, plain (row := .resumeNotices) rfl rfl, plain (row := .noticeStatus) rfl rfl,
    plain (row := .readSetting) rfl rfl, spells_ofWriteSetting whole ops, plain (row := .identify) rfl rfl,
    plain (row := .warmReset) rfl rfl, by simp⟩

/-- A code is listed in R175, or its ask keeps the whole body (R156). -/
theorem spells_ofCommandCode {h : Header} (whole : h.isWhole = true) (code : Byte) (ops : List Byte) :
    Spells (ofCommandCode h code ops) (spell 0x03 h (code :: ops)) := by
  by_cases listed : code ∈ commandCodes
  · exact spells_ofCommandCode_of_mem whole ops code listed
  · rw [ofCommandCode_unknown code listed]
    exact ⟨by simp [Instr.wellFormed, fits_of_isWhole h _ whole, listed], rfl⟩

/-- A cut header leaves no body, and a body of no bytes names no command (R172). -/
theorem spells_ofManage {h : Header} {body : List Byte} (fits : h.fits body = true) :
    Spells (ofManage h body) (spell 0x03 h body) := by
  cases body with
  | nil => exact ⟨by simp [ofManage, Instr.wellFormed, fits], rfl⟩
  | cons code ops =>
    have whole : h.isWhole = true := by
      cases h with
      | whole => rfl
      | cut => simp [Header.fits] at fits
    exact spells_ofCommandCode whole code ops

/-- Cutting the header off a message and spelling it again gives back every byte (R171). -/
theorem spell_splitHeader (kind : Byte) (rest : List Byte) :
    spell kind (splitHeader rest).1 (splitHeader rest).2 = kind :: rest :=
  congrArg (kind :: ·) (splitHeader_bytes rest).1

theorem spells_ofMessage (m : List Byte) : Spells (Instr.ofMessage m) m := by
  cases m with
  | nil => exact ⟨rfl, rfl⟩
  | cons kind rest =>
    have fits := (splitHeader_bytes rest).2
    have bytes := spell_splitHeader kind rest
    simp only [Instr.ofMessage]
    split_ifs with read write manage ack
    · subst read; exact ⟨fits, congrArg some bytes⟩
    · subst write; exact ⟨fits, congrArg some bytes⟩
    · subst manage; exact bytes ▸ spells_ofManage fits
    · subst ack; exact ⟨fits, congrArg some bytes⟩
    · have other := (not_mem_askKinds_iff kind).2 ⟨read, write, manage, ack⟩
      exact ⟨by simp [Instr.wellFormed, other], rfl⟩

/-! ### The message of a row is read as that row -/

/-- A kind that reads its messages as a row reads the message of that row: the header is cut where it was joined (R171). -/
theorem ofMessage_spell {kind : Byte} {row : Header → List Byte → Instr}
    (reads : ∀ rest, Instr.ofMessage (kind :: rest) = row (splitHeader rest).1 (splitHeader rest).2) {h : Header} {body : List Byte}
    (fits : h.fits body = true) : Instr.ofMessage (spell kind h body) = row h body := by
  rw [spell, reads, splitHeader_spelled h body fits]

theorem ofMessage_spell_manage {h : Header} {body : List Byte} (fits : h.fits body = true) :
    Instr.ofMessage (spell 0x03 h body) = ofManage h body :=
  ofMessage_spell (fun _ => rfl) fits

theorem ofMessage_spell_command {h : Header} (whole : h.isWhole = true) (code : Byte) (ops : List Byte) :
    Instr.ofMessage (spell 0x03 h (code :: ops)) = ofCommandCode h code ops :=
  ofMessage_spell_manage (fits_of_isWhole h _ whole)

theorem ofWriteSetting_of_not_mem {block : List Byte} (other : block.head?.any (ownRowSettings.contains ·) = false) (h : Header) :
    ofWriteSetting h block = .writeSetting h block := by
  cases block with
  | nil => rfl
  | cons setting rest =>
    obtain ⟨managementSet, noticeTarget, segnWidth⟩ := (not_mem_ownRowSettings_iff setting).1 (by simpa using other)
    simp only [ofWriteSetting, if_neg managementSet, if_neg noticeTarget, if_neg segnWidth]

theorem ofManage_of_not_mem {body : List Byte} (unlisted : body.head?.any (commandCodes.contains ·) = false) (h : Header) :
    ofManage h body = .unknownCommand h body := by
  cases body with
  | nil => rfl
  | cons code ops => exact ofCommandCode_unknown code (by simpa using unlisted) h ops

theorem ofMessage_of_not_mem {m : List Byte} (other : m.head?.any (askKinds.contains ·) = false) :
    Instr.ofMessage m = .askOfUnknownKind m := by
  cases m with
  | nil => rfl
  | cons kind rest =>
    obtain ⟨read, write, manage, ack⟩ := (not_mem_askKinds_iff kind).1 (by simpa using other)
    exact ofMessage_of_unknown_kind kind rest read write manage ack

/-- By the row: each ask is read through its kind and its code, and a row that shares its code with others is told apart by the condition
that makes it well-formed. -/
theorem ofMessage_of_spells {c : Instr} {m : List Byte} (spells : Spells c m) : Instr.ofMessage m = c := by
  obtain ⟨wellFormed, message⟩ := spells
  cases c <;> cases message
  case read => exact ofMessage_spell (row := .read) (fun _ => rfl) wellFormed
  case write => exact ofMessage_spell (row := .write) (fun _ => rfl) wellFormed
  case noticeAck => exact ofMessage_spell (row := .noticeAck) (fun _ => rfl) wellFormed
  case close h ops =>
    simp only [Instr.wellFormed, Bool.and_eq_true, Bool.not_eq_true'] at wellFormed
    obtain ⟨whole, bit⟩ := wellFormed
    exact (ofMessage_spell_command whole _ _).trans (if_neg (Bool.eq_false_iff.1 bit))
  case closeWithAbandon h ops =>
    simp only [Instr.wellFormed, Bool.and_eq_true] at wellFormed
    obtain ⟨whole, bit⟩ := wellFormed
    exact (ofMessage_spell_command whole _ _).trans (if_pos bit)
  case writeSetting h ops =>
    simp only [Instr.wellFormed, Bool.and_eq_true, Bool.not_eq_true'] at wellFormed
    obtain ⟨whole, other⟩ := wellFormed
    exact (ofMessage_spell_command whole _ _).trans (ofWriteSetting_of_not_mem other h)
  case unknownCommand h body =>
    simp only [Instr.wellFormed, Bool.and_eq_true, Bool.not_eq_true'] at wellFormed
    obtain ⟨fits, unlisted⟩ := wellFormed
    exact (ofMessage_spell_manage fits).trans (ofManage_of_not_mem unlisted h)
  case askOfUnknownKind =>
    simp only [Instr.wellFormed, Bool.not_eq_true'] at wellFormed
    exact ofMessage_of_not_mem wellFormed
  all_goals exact ofMessage_spell_command wellFormed _ _

/-! ### The statements -/

/-- Settles O6: the decoder and the spelling are inverse at each layer of a message. -/
theorem messagesAndAsksAgree : Obligations.MessagesAndAsksAgree :=
  ⟨spells_ofMessage, fun _ _ wellFormed message => ofMessage_of_spells ⟨wellFormed, message⟩⟩

/-- Settles O7: each sample's bytes are the message of its well-formed row. -/
theorem sampleMessagesSpellTheirRows : Obligations.SampleMessagesSpellTheirRows := by
  refine ⟨?read, ?write, ?renew, ?close, ?closeWithAbandon, ?noticeTarget, ?segnWidth, ?warmReset, ?unknownCommand, ?noticeAck,
    ?unknownKind⟩
  all_goals exact ofMessage_of_spells ⟨rfl, rfl⟩

end Sys2Proof.Proofs.MessageFormats

/-! SUPPORT. The step on a queue that holds a command; on an empty queue it is `Scope.step_of_empty_queue`. -/

namespace Sys2Proof.Proofs.QueuedStep

open Sys2Proof Sys2Proof.Machine

/-- Settles O1: of the two branches of `step`, a queue with a front is in the one that executes that front. -/
theorem stepTakesTheFrontCommand : Obligations.StepTakesTheFrontCommand := by
  intro s c rest front
  simp only [step, front]

end Sys2Proof.Proofs.QueuedStep
